-- ==== Sys2Proof/Word.lean ====
section
/-! DEFINITION. The fixed-width unsigned types of 00_scope.md R11: nothing in the block is signed. -/

namespace Sys2Proof

/-- A `u8`: a frame byte, a buffer cell, IMM8, a unit id, a function code. -/
abbrev Byte := BitVec 8

/-- A `u16`: the CRC, an address, a quantity, a decoded register word. -/
abbrev U16 := BitVec 16

/-- A `u32`: what one port access carries, and a command word. -/
abbrev Word := BitVec 32

end Sys2Proof
end

