-- ==== Sys2Proof/Config.lean ====
section
/-! DEFINITION. What an implementation of MBRTU-CODEC fixes (00_scope.md R5 to R9), and the one value the spec leaves free. -/

namespace Sys2Proof

/-- `P_HALF` (00_scope.md R7): how the word decode reads "÷ 2". -/
inductive HalfMode where
  | floor
  | exact
  deriving DecidableEq, Repr

/-- `P_BUF_RESET` (00_scope.md R9): what a buffer cell holds after reset. -/
inductive BufReset where
  /-- every cell is 0x00 -/
  | zero
  /-- a cell holds no value until it is written -/
  | undef
  deriving DecidableEq, Repr

/-- The implementation parameters of 00_scope.md section 3.
Their legal ranges are `Config.Legal` (WellFormed.lean). -/
structure Config where
  /-- `P_BUF_SIZE`, written N (R5): byte cells in each of IN_BUF and OUT_BUF. -/
  bufSize   : Nat
  /-- `P_DEVICE_ID` (R6): the constant stamped into RESP_DEVID. -/
  deviceId  : Byte
  /-- `P_HALF` (R7). -/
  half      : HalfMode
  /-- `P_REMAIN_SUB` (R8): the word decode's remaining-byte-count is L minus this. -/
  remainSub : Nat
  /-- `P_BUF_RESET` (R9). -/
  bufReset  : BufReset
  deriving DecidableEq, Repr

/-- The values this hardware takes (00_scope.md section 3, column "value for this hardware"). -/
def Config.hw : Config where
  bufSize   := 256
  deviceId  := 23
  half      := .floor
  remainSub := 5
  bufReset  := .zero

/-- FREE VALUE: the host-side description text of a known exception code other than 0x02
(42_parse.md R146; 93_implementation_defined.md I17: "any value", a claim must not fix it).
No register of the block depends on it. Log entry 13. -/
opaque Config.freeDescription : Byte → String

end Sys2Proof
end

