-- ==== Sys2Proof/Syntax.lean ====
section
/-! DEFINITION. The commands of the block: one constructor per row of spec/opcode_table.json. -/

namespace Sys2Proof

/-- A command (30_encoding.md R82). Only CRC_UPDATE has an operand in its word, IMM8 (R83);
every other operand is a register or a buffer. The IMM8 bits of the other five commands are a
don't-care (R84) and are no part of the instruction (log entry 11). -/
inductive Instr where
  /-- CRC_INIT, 40_crc.md R106 -/
  | crcInit
  /-- CRC_UPDATE, 40_crc.md R107; `imm8` is used unchanged (30_encoding.md R83) -/
  | crcUpdate (imm8 : Byte)
  /-- CRC_BUF, 40_crc.md R108 -/
  | crcBuf
  /-- BUILD_READ, 41_build.md R120 -/
  | buildRead
  /-- BUILD_FRAME, 41_build.md R122 -/
  | buildFrame
  /-- PARSE, 42_parse.md R140 -/
  | parse
  deriving DecidableEq, Repr

end Sys2Proof
end

