-- ==== Sys2Proof/WellFormed.lean ====
section
/-! DEFINITION. The checks on terms: which configurations are legal, and which instructions are well formed. -/

namespace Sys2Proof

/-- The legal values of 00_scope.md section 3: N in 8..256 (R5), `P_REMAIN_SUB` in 0..15.
`P_DEVICE_ID` in 0..255 holds by its type. -/
abbrev Config.Legal (c : Config) : Prop :=
  8 ≤ c.bufSize ∧ c.bufSize ≤ 256 ∧ c.remainSub ≤ 15

/-- An immediate is encodable when it fits the field it goes to: IMM8 is CMD[15:8], a `u8`
(30_encoding.md R80, R83). This is the check on a host script's number before it becomes an operand. -/
abbrev immFits (n : Nat) : Prop := n < 256

/-- Every term of `Instr` is well formed: the one operand, IMM8, is a `u8` by its type and every
value of it is legal (40_crc.md R107), and no other command has an operand in its word. -/
abbrev Instr.WellFormed (i : Instr) : Prop :=
  match i with
  | .crcInit => True
  | .crcUpdate imm8 => immFits imm8.toNat
  | .crcBuf => True
  | .buildRead => True
  | .buildFrame => True
  | .parse => True

end Sys2Proof
end

