-- ==== Sys2Proof/Decode.lean ====
section
/-! DEFINITION. The command word (30_encoding.md section 1): its fields, the decoder of R81, the opcode
table of R82, and the encoder written from R82 and R94. -/

namespace Sys2Proof

/-! ## The fields of R80 -/

/-- OPC, bits [7:0]. -/
def opcField (w : Word) : Byte := w.extractLsb' 0 8

/-- IMM8, bits [15:8]. -/
def imm8Field (w : Word) : Byte := w.extractLsb' 8 8

/-- RSVD, bits [31:16], which must be 0. -/
def rsvdField (w : Word) : U16 := w.extractLsb' 16 16

/-! ## The decoder of R81 -/

/-- Why a command word is illegal (30_encoding.md R85). -/
inductive IllegalCmd where
  /-- w[31:16] ≠ 0 -/
  | reservedNonzero
  /-- w[7:0] names no command -/
  | unassignedOpcode
  deriving DecidableEq, Repr

/-- What a command word decodes to. -/
inductive Decoded where
  | command (i : Instr)
  | illegal (why : IllegalCmd)
  deriving DecidableEq, Repr

/-- The case on w[7:0] in R81. -/
def decodeOpcode (opc imm8 : Byte) : Decoded :=
  if opc = 0x01 then .command .crcInit
  else if opc = 0x02 then .command (.crcUpdate imm8)
  else if opc = 0x03 then .command .crcBuf
  else if opc = 0x10 then .command .buildRead
  else if opc = 0x11 then .command .buildFrame
  else if opc = 0x20 then .command .parse
  else .illegal .unassignedOpcode

/-- R81: total over all 2^32 words. -/
def decode (w : Word) : Decoded :=
  if rsvdField w ≠ 0 then .illegal .reservedNonzero
  else decodeOpcode (opcField w) (imm8Field w)

/-- The command in a decoding, if there is one. -/
def Decoded.toInstr? (d : Decoded) : Option Instr :=
  match d with
  | .command i => some i
  | .illegal _ => none

/-! ## The opcode table of R82 -/

/-- One row of the opcode table: a word w selects it when w & mask = match. -/
structure OpcodeRow where
  mnemonic  : String
  matchBits : Word
  mask      : Word
  deriving DecidableEq, Repr

/-- R82, row by row. -/
def opcodeTable : List OpcodeRow :=
  [ ⟨"CRC_INIT",    0x00000001, 0xFFFF00FF⟩,
    ⟨"CRC_UPDATE",  0x00000002, 0xFFFF00FF⟩,
    ⟨"CRC_BUF",     0x00000003, 0xFFFF00FF⟩,
    ⟨"BUILD_READ",  0x00000010, 0xFFFF00FF⟩,
    ⟨"BUILD_FRAME", 0x00000011, 0xFFFF00FF⟩,
    ⟨"PARSE",       0x00000020, 0xFFFF00FF⟩ ]

/-- R82: "A word w selects a row when (w & mask) = match." -/
def OpcodeRow.selects (r : OpcodeRow) (w : Word) : Bool := w &&& r.mask = r.matchBits

/-- The table's name of an instruction. -/
def Instr.mnemonic (i : Instr) : String :=
  match i with
  | .crcInit => "CRC_INIT"
  | .crcUpdate _ => "CRC_UPDATE"
  | .crcBuf => "CRC_BUF"
  | .buildRead => "BUILD_READ"
  | .buildFrame => "BUILD_FRAME"
  | .parse => "PARSE"

/-! ## The encoder -/

/-- The canonical command word of an instruction: R82's match value, with IMM8 in [15:8] for
CRC_UPDATE (R94: `(imm8 << 8) | 0x02`) and 0 there for the others (40_crc.md R106 and the other
command rules: "The canonical word is ..."). -/
def encode (i : Instr) : Word :=
  match i with
  | .crcInit => 0x00000001
  | .crcUpdate imm8 => (imm8.setWidth 32 <<< 8) ||| 0x00000002
  | .crcBuf => 0x00000003
  | .buildRead => 0x00000010
  | .buildFrame => 0x00000011
  | .parse => 0x00000020

/-! ## The host's numbering of an opcode-table word -/

/-- The command word whose low `nbits` bits are those of `w` and whose other bits are 0. A command
is one 32-bit port word with no byte lanes (R80, 20_memory.md R57), so bit i of the table's number
is bit i of the word. -/
def tableWord (nbits w : Nat) : Word := BitVec.ofNat 32 (w % 2 ^ nbits)

/-- The instruction the decoder reads from an opcode-table word. -/
def decodeTableWord (nbits w : Nat) : Option Instr := (decode (tableWord nbits w)).toInstr?

end Sys2Proof
end

