-- ==== Sys2Proof/Machine/State.lean ====
section
/-! DEFINITION. The state of the block (10_state.md R20), the host's side of the port, and the ways a step can stop. -/

namespace Sys2Proof.Machine

/-! ## How a step stops -/

/-- Model faults (60_exceptions.md R194). -/
inductive Fault where
  /-- `UNWRITTEN_BYTE`: raised by a host read of a buffer window word, and by CRC_BUF, BUILD_FRAME
  and PARSE, when the cell consumed has not been written since reset and P_BUF_RESET = UNDEF
  (00_scope.md R9). Safe: "This errs toward unprovable". -/
  | unwrittenByte
  deriving DecidableEq, Repr

/-- Model refusals. -/
inductive Refusal where
  /-- An instruction without a meaning, rejected by name in `exec`. No arm uses it. Safe. -/
  | notModelled (mnemonic : String)
  /-- A port access whose size is not 4 bytes (20_memory.md R51). Raised by a host read or write. Safe. -/
  | badAccessSize (size : Nat)
  /-- A 4-byte port access at an offset that is not a multiple of 4 (20_memory.md R51). Raised by a
  host read or write. Safe. -/
  | misalignedOffset (off : Nat)
  /-- A 4-byte aligned port access at an offset that is not mapped (20_memory.md R52). Raised by a
  host read or write. Safe. -/
  | unmappedOffset (off : Nat)
  deriving DecidableEq, Repr

/-! ## The state -/

/-- The contents of a frame buffer: (cell index, byte) pairs, in the canonical form `Memory.wf`
(Ops.lean). What an index that is not listed reads as is `unlistedCell` (Ops.lean). -/
abbrev Memory := List Host.Cell

/-- ERR_INFO's two fields (10_state.md R35). -/
structure ErrInfo where
  /-- CODE, bits [7:0] -/
  code  : Byte
  /-- KNOWN, bit [8] -/
  known : Bool
  deriving DecidableEq, Repr

/-- What reaches the block from outside: a host access to the port (20_memory.md R50) or the reset
input (70_reset_and_hazards.md R200). -/
inductive PortEvent where
  /-- `MemRead(off, size)` -/
  | read (size off : Nat)
  /-- `MemWrite(off, size, v)` -/
  | write (size off : Nat) (v : Word)
  /-- the reset input, asserted between two accesses -/
  | reset
  deriving DecidableEq, Repr

/-- The machine's state. Every register holds its fields only: reserved bits read 0 and are not
stored (10_state.md R44). -/
structure State where
  /-- PARAM is hardwired to this configuration (10_state.md R36). No step changes it. Log entry 4. -/
  cfg       : Config
  /-- STATUS.CODE (R23) -/
  status    : BitVec 4
  /-- CRC_ACC.ACC (R24) -/
  crcAcc    : U16
  /-- REQ_UNIT.UNIT (R25) -/
  reqUnit   : Byte
  /-- REQ_FC.FC (R26) -/
  reqFc     : Byte
  /-- REQ_ADDR.ADDR (R27) -/
  reqAddr   : U16
  /-- REQ_QTY.QTY (R28) -/
  reqQty    : U16
  /-- IN_LEN.LEN (R29) -/
  inLen     : BitVec 9
  /-- OUT_LEN.LEN (R30) -/
  outLen    : BitVec 9
  /-- RESP_UNIT.UNIT (R31) -/
  respUnit  : Byte
  /-- RESP_FC.FC (R32) -/
  respFc    : Byte
  /-- RESP_REG.REG (R33) -/
  respReg   : U16
  /-- RESP_DEVID.DEVID (R34) -/
  respDevid : Byte
  /-- ERR_INFO (R35) -/
  errInfo   : ErrInfo
  /-- IN_BUF (R38) -/
  inBuf     : Memory
  /-- OUT_BUF (R40) -/
  outBuf    : Memory
  /-- The model's own: the accesses and resets still to come, the next one first (20_memory.md R65).
  Log entry 1. -/
  events    : List PortEvent
  /-- The model's own: the words the host's reads have returned, the newest first (20_memory.md R50).
  Log entry 3. -/
  replies   : List Word
  deriving DecidableEq, Repr

/-- The state after reset under a configuration (70_reset_and_hazards.md R200). The buffers list
nothing: every cell reads 0x00 under ZERO and holds no value under UNDEF. -/
def State.resetOf (c : Config) : State where
  cfg       := c
  status    := 0
  crcAcc    := 0xFFFF
  reqUnit   := 0
  reqFc     := 0
  reqAddr   := 0
  reqQty    := 0
  inLen     := 0
  outLen    := 0
  respUnit  := 0
  respFc    := 0
  respReg   := 0
  respDevid := 0
  errInfo   := ⟨0, false⟩
  inBuf     := []
  outBuf    := []
  events    := []
  replies   := []

/-- The machine right after reset, in this hardware's configuration. -/
def State.reset : State := State.resetOf Config.hw

end Sys2Proof.Machine
end

