-- ==== Sys2Proof/Machine/Flags.lean ====
section
/-! DEFINITION. The condition outputs of the block (10_state.md R41): STATUS.CODE and ERR_INFO, and what each
error of a command writes to them (60_exceptions.md section 1). -/

namespace Sys2Proof.Machine

/-- The status codes by name (60_exceptions.md R180). -/
inductive StatusCode where
  | ok
  | crcMismatch
  | exceptionResponse
  | unsupportedFc
  | invalidBuildParams
  | frameMalformed
  | noValue
  | lenError
  | illegalCmd
  deriving DecidableEq, Repr

/-- The numbering of R180. Codes 9 to 15 are never written. -/
def StatusCode.bits (c : StatusCode) : BitVec 4 :=
  match c with
  | .ok => 0
  | .crcMismatch => 1
  | .exceptionResponse => 2
  | .unsupportedFc => 3
  | .invalidBuildParams => 4
  | .frameMalformed => 5
  | .noValue => 6
  | .lenError => 7
  | .illegalCmd => 8

/-- `S(info)` of `raise S(info)` (00_scope.md R13, 60_exceptions.md R184): an error and what it carries. -/
inductive CommandError where
  | crcMismatch
  /-- carries the exception code, byte 2 of the frame -/
  | exceptionResponse (code : Byte)
  /-- carries the function code, byte 1 of the frame -/
  | unsupportedFc (fc : Byte)
  | invalidBuildParams
  | frameMalformed
  | noValue
  | lenError
  | illegalCmd
  deriving DecidableEq, Repr

/-- The status an error is reported as (R180). -/
def CommandError.status (e : CommandError) : StatusCode :=
  match e with
  | .crcMismatch => .crcMismatch
  | .exceptionResponse _ => .exceptionResponse
  | .unsupportedFc _ => .unsupportedFc
  | .invalidBuildParams => .invalidBuildParams
  | .frameMalformed => .frameMalformed
  | .noValue => .noValue
  | .lenError => .lenError
  | .illegalCmd => .illegalCmd

/-- The codes the Exception Code Table covers, 0x01..0x08 (42_parse.md R145). -/
def knownException (c : Byte) : Bool := decide (0x01 ≤ c ∧ c ≤ 0x08)

/-- ERR_INFO with both fields 0 (R183). -/
def noErrInfo : ErrInfo := ⟨0, false⟩

/-- What PARSE writes to ERR_INFO on an error (60_exceptions.md R183). -/
def CommandError.errInfo (e : CommandError) : ErrInfo :=
  match e with
  | .exceptionResponse c => ⟨c, knownException c⟩
  | .unsupportedFc fc => ⟨fc, false⟩
  | .crcMismatch => noErrInfo
  | .invalidBuildParams => noErrInfo
  | .frameMalformed => noErrInfo
  | .noValue => noErrInfo
  | .lenError => noErrInfo
  | .illegalCmd => noErrInfo

/-- Host side, no part of the block: the description the host gives an EXCEPTION_RESPONSE from
ERR_INFO (42_parse.md R146). Only the texts of 0x02 and of an unknown code are in the source; the
others are free (log entry 13). -/
def hostDescription (e : ErrInfo) : String :=
  if e.known then
    if e.code = 0x02 then "data address unavailable" else Config.freeDescription e.code
  else "unknown exception code"

end Sys2Proof.Machine
end

