-- ==== Sys2Proof/Machine/Ops.lean ====
section
/-! DEFINITION. The named operations over the buffers and registers, and how a command ends: `finish`,
`raise` (60_exceptions.md R184) and `settle`. -/

namespace Sys2Proof.Machine

/-! ## Buffers -/

/-- What a cell that the list of a buffer does not name reads as (00_scope.md R9): 0x00 under ZERO,
no value under UNDEF. -/
def unlistedCell (r : BufReset) : Option Byte :=
  match r with
  | .zero => some 0
  | .undef => none

/-- The canonical form of a buffer of `n` cells whose unlisted cells read as `d`: indices strictly
rising and below `n`, and no entry equal to what an unlisted cell reads as. -/
abbrev Memory.wf (d : Option Byte) (n : Nat) (m : Memory) : Prop :=
  m.Pairwise (fun x y => x.1 < y.1) ∧ ∀ c ∈ m, c.1 < n ∧ some c.2 ≠ d

/-- The cell at index `i`; `none` when it holds no value. -/
def Memory.readCell (d : Option Byte) (m : Memory) (i : Nat) : Option Byte :=
  match m with
  | [] => d
  | c :: rest => if c.1 = i then some c.2 else Memory.readCell d rest i

/-- `cell[i] <- b`, keeping the canonical form. -/
def Memory.writeCell (d : Option Byte) (m : Memory) (i : Nat) (b : Byte) : Memory :=
  match m with
  | [] => if some b = d then [] else [(i, b)]
  | c :: rest =>
    if i < c.1 then (if some b = d then c :: rest else (i, b) :: c :: rest)
    else if i = c.1 then (if some b = d then rest else (i, b) :: rest)
    else c :: Memory.writeCell d rest i b

/-- `cell[i], cell[i+1], ... <- bs`, in that order. -/
def Memory.writeCells (d : Option Byte) (m : Memory) (i : Nat) (bs : List Byte) : Memory :=
  match bs with
  | [] => m
  | b :: rest => Memory.writeCells d (Memory.writeCell d m i b) (i + 1) rest

/-- The `n` cells from index `i` on; `none` when one of them holds no value. -/
def Memory.readCells (d : Option Byte) (m : Memory) (i n : Nat) : Option (List Byte) :=
  match n with
  | 0 => some []
  | k + 1 =>
    match Memory.readCell d m i, Memory.readCells d m (i + 1) k with
    | some b, some bs => some (b :: bs)
    | _, _ => none

/-- What an unlisted cell reads as in this configuration. -/
def State.unlisted (s : State) : Option Byte := unlistedCell s.cfg.bufReset

/-- IN_BUF[i] (10_state.md R38). -/
def State.inCell (s : State) (i : Nat) : Option Byte := s.inBuf.readCell s.unlisted i

/-- OUT_BUF[i] (10_state.md R40). -/
def State.outCell (s : State) (i : Nat) : Option Byte := s.outBuf.readCell s.unlisted i

/-! ## Register and buffer writes (`reg.FIELD <- v`, 00_scope.md R13) -/

/-- STATUS.CODE <- c -/
def State.setStatus (c : BitVec 4) (s : State) : State := { s with status := c }

/-- CRC_ACC.ACC <- v -/
def State.setCrcAcc (v : U16) (s : State) : State := { s with crcAcc := v }

/-- REQ_UNIT.UNIT <- v -/
def State.setReqUnit (v : Byte) (s : State) : State := { s with reqUnit := v }

/-- REQ_FC.FC <- v -/
def State.setReqFc (v : Byte) (s : State) : State := { s with reqFc := v }

/-- REQ_ADDR.ADDR <- v -/
def State.setReqAddr (v : U16) (s : State) : State := { s with reqAddr := v }

/-- REQ_QTY.QTY <- v -/
def State.setReqQty (v : U16) (s : State) : State := { s with reqQty := v }

/-- IN_LEN.LEN <- v -/
def State.setInLen (v : BitVec 9) (s : State) : State := { s with inLen := v }

/-- IN_BUF[i] <- b -/
def State.setInCell (i : Nat) (b : Byte) (s : State) : State :=
  { s with inBuf := s.inBuf.writeCell s.unlisted i b }

/-- OUT_LEN.LEN <- v -/
def State.setOutLen (v : BitVec 9) (s : State) : State := { s with outLen := v }

/-- OUT_BUF[0], OUT_BUF[1], ... <- bs -/
def State.setOutFrame (bs : List Byte) (s : State) : State :=
  { s with outBuf := s.outBuf.writeCells s.unlisted 0 bs }

/-- RESP_UNIT, RESP_FC, RESP_REG, RESP_DEVID and ERR_INFO, which PARSE writes together
(42_parse.md R161, 60_exceptions.md R184). -/
def State.setParseResult (unit fc : Byte) (reg : U16) (devid : Byte) (e : ErrInfo) (s : State) : State :=
  { s with respUnit := unit, respFc := fc, respReg := reg, respDevid := devid, errInfo := e }

/-- The host is given the word a read returned. -/
def State.pushReply (w : Word) (s : State) : State := { s with replies := w :: s.replies }

/-- The events still to come. -/
def State.setEvents (es : List PortEvent) (s : State) : State := { s with events := es }

/-- The reset input (70_reset_and_hazards.md R200): every state element at its reset value. PARAM is
not changed, and the host's side of the port is not the block's to reset (log entry 9). -/
def State.applyReset (s : State) : State :=
  { State.resetOf s.cfg with events := s.events, replies := s.replies }

/-! ## How a command ends -/

/-- `finish(S)` (00_scope.md R13): STATUS.CODE <- S. -/
def finish (c : StatusCode) (s : State) : State := s.setStatus c.bits

/-- The families of R184's error write-back. -/
inductive CommandFamily where
  /-- CRC_BUF -/
  | crc
  /-- BUILD_READ and BUILD_FRAME -/
  | build
  /-- PARSE -/
  | parse
  /-- an illegal command word -/
  | illegal
  deriving DecidableEq, Repr

/-- `raise S(info)` (60_exceptions.md R184): the error write-back of the command's family and nothing
else. The block has no trap (R188): this is the one place where an error is reported. -/
def raise (f : CommandFamily) (e : CommandError) (s : State) : State :=
  match f with
  | .crc => finish e.status s
  | .build => (finish e.status s).setOutLen 0
  | .parse => (finish e.status s).setParseResult 0 0 0 0 e.errInfo
  | .illegal => finish e.status s

/-- How the work inside a command can come out, before anything is written. -/
inductive Run (α : Type) where
  /-- its checks passed, with this result -/
  | done (a : α)
  /-- it raised an error -/
  | raised (e : CommandError)
  /-- it consumed a cell that holds no value (60_exceptions.md R194) -/
  | unwritten
  deriving DecidableEq, Repr

/-- Go on with the result, if there is one. -/
def Run.andThen {α β : Type} (r : Run α) (k : α → Run β) : Run β :=
  match r with
  | .done a => k a
  | .raised e => .raised e
  | .unwritten => .unwritten

/-- Go on only if the check holds; else raise the error. -/
def Run.require {α : Type} (p : Prop) [Decidable p] (e : CommandError) (k : Run α) : Run α :=
  if p then k else .raised e

/-- A value that a buffer holds, or `unwritten`. -/
def Run.ofCell {α : Type} (o : Option α) : Run α :=
  match o with
  | some a => .done a
  | none => .unwritten

/-- The end of every command: the writes of the successful path, or `raise`, or the model fault.
"A command does not write its successful outputs before its checks pass" (60_exceptions.md R184). -/
def settle {α : Type} (f : CommandFamily) (s : State) (r : Run α) (success : α → State) :
    Host.Outcome State Fault Refusal :=
  match r with
  | .done a => .next (success a)
  | .raised e => .next (raise f e s)
  | .unwritten => .fault .unwrittenByte

end Sys2Proof.Machine
end

