-- ==== Sys2Proof/Machine/Operands.lean ====
section
/-! DEFINITION. What the commands read: the frame length, the bytes of IN_BUF, `byte(i)` of PARSE
(42_parse.md R142), and the byte orders inside a frame (20_memory.md section 3). -/

namespace Sys2Proof.Machine

/-! ## Byte orders -/

/-- v[7:0] -/
def loByte (v : U16) : Byte := v.extractLsb' 0 8

/-- v[15:8] -/
def hiByte (v : U16) : Byte := v.extractLsb' 8 8

/-- `{hi8, lo8}` (00_scope.md R11). -/
def joinBytes (hi lo : Byte) : U16 := hi ++ lo

/-- A 16-bit field of a frame: big-endian, the high byte at the lower offset (30_encoding.md R92). -/
def beBytes (v : U16) : List Byte := [hiByte v, loByte v]

/-- The CRC of a frame: little-endian, the low byte at the lower offset (30_encoding.md R93). -/
def leBytes (v : U16) : List Byte := [loByte v, hiByte v]

/-- The bits of a payload byte, least-significant first (20_memory.md R60). -/
def bitsLsbFirst (x : Byte) : List Bool := (List.range 8).map fun j => x.getLsbD j

/-! ## Registers -/

/-- L = IN_LEN.LEN as an integer (00_scope.md R12). -/
def State.frameLen (s : State) : Nat := s.inLen.toNat

/-- `read_fc(f)` (41_build.md R121). -/
def readFc (f : Byte) : Bool := decide (f = 1 ∨ f = 2 ∨ f = 3 ∨ f = 4)

/-! ## IN_BUF -/

/-- IN_BUF[0..n-1] (20_memory.md R70), each cell consumed. -/
def State.inBytes (s : State) (n : Nat) : Run (List Byte) :=
  .ofCell (s.inBuf.readCells s.unlisted 0 n)

/-- `byte(i)` (42_parse.md R142). -/
def State.frameByte (s : State) (i : Int) : Run Byte :=
  .require (0 ≤ i ∧ i < s.frameLen) .frameMalformed (.ofCell (s.inCell i.toNat))

/-- `{byte(a), byte(b)}`: `byte(a)` is read first. -/
def State.framePair (s : State) (a b : Int) : Run U16 :=
  (s.frameByte a).andThen fun hi => (s.frameByte b).andThen fun lo => .done (joinBytes hi lo)

end Sys2Proof.Machine
end

