-- ==== Sys2Proof/Machine/CrcEngine.lean ====
section
/-! DEFINITION. The CRC-16/Modbus engine (40_crc.md section 1), which every command that computes a CRC uses. -/

namespace Sys2Proof.Machine

/-- The reflected polynomial (00_scope.md R10). -/
def crcPoly : U16 := 0xA001

/-- The initial value of the accumulator (00_scope.md R10). -/
def crcInitial : U16 := 0xFFFF

/-- `crc_step(acc)` (R100); the shift is logical. -/
def crcStep (acc : U16) : U16 := if acc.getLsbD 0 then (acc >>> 1) ^^^ crcPoly else acc >>> 1

/-- `crcStep`, n times. -/
def crcSteps (n : Nat) (acc : U16) : U16 :=
  match n with
  | 0 => acc
  | k + 1 => crcSteps k (crcStep acc)

/-- `crc_byte(acc, b)` (R101): XOR into the low byte, then 8 steps. -/
def crcByte (acc : U16) (b : Byte) : U16 := crcSteps 8 (acc ^^^ b.setWidth 16)

/-- `crc16(s)` (R102): the left fold from 0xFFFF, with no final XOR. -/
def crc16 (bs : List Byte) : U16 := bs.foldl crcByte crcInitial

/-- The bytes with their CRC appended, low byte first (R104). -/
def withCrc (bs : List Byte) : List Byte := bs ++ leBytes (crc16 bs)

/-- `crc_ok(F)` (R104), for F of length at least 2: crc16(F[0 .. L-3]) == {F[L-1], F[L-2]}. -/
def crcOk (f : List Byte) : Bool :=
  decide (2 ≤ f.length ∧
    crc16 (f.take (f.length - 2)) = joinBytes (f.getD (f.length - 1) 0) (f.getD (f.length - 2) 0))

end Sys2Proof.Machine
end

