-- ==== Sys2Proof/Machine/BuildCommands.lean ====
section
/-! DEFINITION. BUILD_READ and BUILD_FRAME (41_build.md). Both run the engine on a private accumulator. -/

namespace Sys2Proof.Machine

/-- A finished frame: OUT_BUF from cell 0 on, OUT_LEN, STATUS = OK (R120, R122). -/
def State.emitFrame (frame : List Byte) (s : State) : State :=
  finish .ok ((s.setOutFrame frame).setOutLen (BitVec.ofNat 9 frame.length))

/-- Bytes 0..5 of a read request (30_encoding.md R87). -/
def readRequestHead (unit fc : Byte) (addr qty : U16) : List Byte :=
  [unit, fc] ++ beBytes addr ++ beBytes qty

/-- The 8-byte read request of REQ_UNIT, REQ_FC, REQ_ADDR and REQ_QTY. -/
def State.readRequest (s : State) : List Byte :=
  withCrc (readRequestHead s.reqUnit s.reqFc s.reqAddr s.reqQty)

/-- The generic frame of a payload (30_encoding.md R88). -/
def State.genericFrame (s : State) (payload : List Byte) : List Byte :=
  withCrc ([s.reqUnit, s.reqFc] ++ payload)

/-- BUILD_READ (R120). -/
def execBuildRead (s : State) : Host.Outcome State Fault Refusal :=
  settle .build s
    (.require (readFc s.reqFc = true) .invalidBuildParams (.done s.readRequest))
    fun frame => s.emitFrame frame

/-- BUILD_FRAME (R122). -/
def execBuildFrame (s : State) : Host.Outcome State Fault Refusal :=
  settle .build s
    (.require (s.frameLen + 4 ≤ s.cfg.bufSize) .lenError (s.inBytes s.frameLen))
    fun payload => s.emitFrame (s.genericFrame payload)

end Sys2Proof.Machine
end

