-- ==== Sys2Proof/Machine/CrcCommands.lean ====
section
/-! DEFINITION. CRC_INIT, CRC_UPDATE and CRC_BUF (40_crc.md section 2). -/

namespace Sys2Proof.Machine

/-- CRC_INIT (R106). -/
def execCrcInit (s : State) : Host.Outcome State Fault Refusal :=
  .next (finish .ok (s.setCrcAcc crcInitial))

/-- CRC_UPDATE (R107). -/
def execCrcUpdate (imm8 : Byte) (s : State) : Host.Outcome State Fault Refusal :=
  .next (finish .ok (s.setCrcAcc (crcByte s.crcAcc imm8)))

/-- CRC_BUF (R108): starts from 0xFFFF, not from CRC_ACC. -/
def execCrcBuf (s : State) : Host.Outcome State Fault Refusal :=
  settle .crc s
    (.require (s.frameLen ≤ s.cfg.bufSize) .lenError (s.inBytes s.frameLen))
    fun bytes => finish .ok (s.setCrcAcc (crc16 bytes))

end Sys2Proof.Machine
end

