-- ==== Sys2Proof/Machine/ParseCommand.lean ====
section
/-! DEFINITION. PARSE: CRC check, error decoder, bit and word decode (42_parse.md). -/

namespace Sys2Proof.Machine

/-! ## Step 1: the CRC (R143) -/

/-- `recv <- {byte(L-1), byte(L-2)}`, then `calc` over all bytes but the last two, then the comparison.
Of the two CRC bytes the last is read first (log entry 7). -/
def State.checkCrc (s : State) : Run Unit :=
  (s.framePair (s.frameLen - 1 : Int) (s.frameLen - 2 : Int)).andThen fun recv =>
  (s.inBytes (s.frameLen - 2)).andThen fun body =>
  .require (crc16 body = recv) .crcMismatch (.done ())

/-! ## Step 3: the bit decode (R150 to R154) -/

/-- `eff <- min(d, L - 5)` (R151); it may be negative. -/
def State.effectiveCount (s : State) (d : Byte) : Int := min (d.toNat : Int) (s.frameLen - 5 : Int)

/-- The scan of R152 from payload byte `k` on, for `n` more bytes. -/
def State.scanBits (s : State) (k n : Nat) : Run (List Bool) :=
  match n with
  | 0 => .done []
  | n' + 1 =>
    (s.frameByte (3 + k : Nat)).andThen fun x =>
    (s.scanBits (k + 1) n').andThen fun rest => .done (bitsLsbFirst x ++ rest)

/-- The bits of the whole scan, as register values. There is no iteration when eff ≤ 0. -/
def State.bitElements (s : State) (d : Byte) : Run (List U16) :=
  (s.scanBits 0 (s.effectiveCount d).toNat).andThen fun bits =>
  .done (bits.map fun b => (BitVec.ofBool b).setWidth 16)

/-! ## Step 3: the word decode (R155 to R159) -/

/-- `m <- min(L - P_REMAIN_SUB, d)` (R155); it may be negative. -/
def State.wordLimit (s : State) (d : Byte) : Int := min (s.frameLen - s.cfg.remainSub : Int) (d.toNat : Int)

/-- `floor_div2` (00_scope.md R12): rounded toward minus infinity. -/
def floorDiv2 (x : Int) : Int := x / 2

/-- `cont(i, m)` (R156). The comparison is strict. -/
def wordCont (h : HalfMode) (i m : Int) : Bool :=
  match h with
  | .floor => decide (i < floorDiv2 m + 4)
  | .exact => decide (2 * i < m + 8)

/-- The loop of R158 from offset `i` on. Each round raises i by 2 and both readings of `cont` need
2i < m + 8, so `fuel` = m + 8 is never used up (log entry 15). -/
def State.scanWords (s : State) (m : Int) (fuel : Nat) (i : Int) : Run (List U16) :=
  match fuel with
  | 0 => .done []
  | fuel' + 1 =>
    if wordCont s.cfg.half i m then
      (s.framePair i (i + 1)).andThen fun w =>
      (s.scanWords m fuel' (i + 2)).andThen fun rest => .done (w :: rest)
    else .done []

/-- The words of the whole scan: it starts at byte offset 3. -/
def State.wordElements (s : State) (d : Byte) : Run (List U16) :=
  s.scanWords (s.wordLimit d) ((s.wordLimit d) + 8).toNat 3

/-! ## Steps 2 to 4 -/

/-- `last(vals)`, or NO_VALUE when the scan extracted nothing (R153, R154, R159). -/
def terminalElement (vals : List U16) : Run U16 :=
  match vals.getLast? with
  | some v => .done v
  | none => .raised .noValue

/-- What a successful parse reports (R161), but for P_DEVICE_ID. -/
structure Parsed where
  unit : Byte
  fc   : Byte
  reg  : U16
  deriving DecidableEq, Repr

/-- Step 3 for a function code (R147, R148). -/
def State.decodePayload (s : State) (b1 : Byte) : Run U16 :=
  if b1 = 1 ∨ b1 = 2 then
    (s.frameByte 2).andThen fun d => (s.bitElements d).andThen terminalElement
  else if b1 = 3 ∨ b1 = 4 then
    (s.frameByte 2).andThen fun d => (s.wordElements d).andThen terminalElement
  else .raised (.unsupportedFc b1)

/-- Steps 2 and 3 (R144, R147): the exception flag is byte 1 bit 7. -/
def State.decodeFrame (s : State) (b1 : Byte) : Run U16 :=
  if b1.getLsbD 7 then (s.frameByte 2).andThen fun c => .raised (.exceptionResponse c)
  else s.decodePayload b1

/-- The whole command before its write-back (R164). -/
def State.parseFrame (s : State) : Run Parsed :=
  .require (s.frameLen ≤ s.cfg.bufSize) .lenError <|
  s.checkCrc.andThen fun _ =>
  (s.frameByte 1).andThen fun b1 =>
  (s.decodeFrame b1).andThen fun reg =>
  (s.frameByte 0).andThen fun unit => .done ⟨unit, b1, reg⟩

/-- PARSE (R140, R161). -/
def execParse (s : State) : Host.Outcome State Fault Refusal :=
  settle .parse s s.parseFrame
    fun p => finish .ok (s.setParseResult p.unit p.fc p.reg s.cfg.deviceId noErrInfo)

end Sys2Proof.Machine
end

