-- ==== Sys2Proof/Machine/Dispatch.lean ====
section
/-! DEFINITION. One arm per command of the opcode table (30_encoding.md R81). -/

namespace Sys2Proof.Machine

def exec (i : Instr) (s : State) : Host.Outcome State Fault Refusal :=
  match i with
  | .crcInit => Sys2Proof.Machine.execCrcInit s
  | .crcUpdate imm8 => Sys2Proof.Machine.execCrcUpdate imm8 s
  | .crcBuf => Sys2Proof.Machine.execCrcBuf s
  | .buildRead => Sys2Proof.Machine.execBuildRead s
  | .buildFrame => Sys2Proof.Machine.execBuildFrame s
  | .parse => Sys2Proof.Machine.execParse s

end Sys2Proof.Machine
end

