-- ==== Sys2Proof/Machine/Port.lean ====
section
/-! DEFINITION. The host port: which accesses it admits, what a read returns, what a write does
(20_memory.md section 1), and the command a CMD write issues (30_encoding.md R81, R85). -/

namespace Sys2Proof.Machine

/-- What a mapped offset reaches (20_memory.md R52). -/
inductive PortTarget where
  | cmd
  | status
  | crcAcc
  | reqUnit
  | reqFc
  | reqAddr
  | reqQty
  | inLen
  | outLen
  | respUnit
  | respFc
  | respReg
  | respDevid
  | errInfo
  | param
  | inBuf (i : Nat)
  | outBuf (i : Nat)
  deriving DecidableEq, Repr

/-- The register at a register number, offset / 4 (10_state.md register table). -/
def registerTarget (k : Nat) : Option PortTarget :=
  match k with
  | 0 => some .cmd
  | 1 => some .status
  | 2 => some .crcAcc
  | 3 => some .reqUnit
  | 4 => some .reqFc
  | 5 => some .reqAddr
  | 6 => some .reqQty
  | 7 => some .inLen
  | 8 => some .outLen
  | 9 => some .respUnit
  | 10 => some .respFc
  | 11 => some .respReg
  | 12 => some .respDevid
  | 13 => some .errInfo
  | 14 => some .param
  | _ => none

/-- What a 4-aligned offset reaches with N cells in each buffer (R52): the registers from 0x000, the
windows of 10_state.md R39 at 0x400 and 0x800; `none` when it is unmapped. -/
def portTarget (n off : Nat) : Option PortTarget :=
  if off < 0x400 then registerTarget (off / 4)
  else if off < 0x800 then
    (if (off - 0x400) / 4 < n then some (.inBuf ((off - 0x400) / 4)) else none)
  else
    (if (off - 0x800) / 4 < n then some (.outBuf ((off - 0x800) / 4)) else none)

/-- The offset of a target (10_state.md register table and R39). -/
def PortTarget.offset (t : PortTarget) : Nat :=
  match t with
  | .cmd => 0x000
  | .status => 0x004
  | .crcAcc => 0x008
  | .reqUnit => 0x00C
  | .reqFc => 0x010
  | .reqAddr => 0x014
  | .reqQty => 0x018
  | .inLen => 0x01C
  | .outLen => 0x020
  | .respUnit => 0x024
  | .respFc => 0x028
  | .respReg => 0x02C
  | .respDevid => 0x030
  | .errInfo => 0x034
  | .param => 0x038
  | .inBuf i => 0x400 + 4 * i
  | .outBuf i => 0x800 + 4 * i

/-! ## Reads (R53) -/

/-- The PARAM word of a configuration (10_state.md R36). -/
def paramWord (c : Config) : Word :=
  (c.deviceId.setWidth 32 <<< 24) ||| ((BitVec.ofNat 4 c.remainSub).setWidth 32 <<< 16)
  ||| ((BitVec.ofBool (c.bufReset = .undef)).setWidth 32 <<< 13)
  ||| ((BitVec.ofBool (c.half = .exact)).setWidth 32 <<< 12)
  ||| (BitVec.ofNat 9 c.bufSize).setWidth 32

/-- The ERR_INFO word (10_state.md R35). -/
def errInfoWord (e : ErrInfo) : Word := ((BitVec.ofBool e.known).setWidth 32 <<< 8) ||| e.code.setWidth 32

/-- The word a read of a target returns, every reserved bit 0; `none` when it is a buffer cell that
holds no value. -/
def State.readTarget (t : PortTarget) (s : State) : Option Word :=
  match t with
  | .cmd => some 0
  | .status => some (s.status.setWidth 32)
  | .crcAcc => some (s.crcAcc.setWidth 32)
  | .reqUnit => some (s.reqUnit.setWidth 32)
  | .reqFc => some (s.reqFc.setWidth 32)
  | .reqAddr => some (s.reqAddr.setWidth 32)
  | .reqQty => some (s.reqQty.setWidth 32)
  | .inLen => some (s.inLen.setWidth 32)
  | .outLen => some (s.outLen.setWidth 32)
  | .respUnit => some (s.respUnit.setWidth 32)
  | .respFc => some (s.respFc.setWidth 32)
  | .respReg => some (s.respReg.setWidth 32)
  | .respDevid => some (s.respDevid.setWidth 32)
  | .errInfo => some (errInfoWord s.errInfo)
  | .param => some (paramWord s.cfg)
  | .inBuf i => (s.inCell i).map (·.setWidth 32)
  | .outBuf i => (s.outCell i).map (·.setWidth 32)

/-! ## Writes (R54 to R56) -/

/-- An illegal command word (30_encoding.md R85): STATUS.CODE <- 8 and nothing else. -/
def execIllegal (s : State) : Host.Outcome State Fault Refusal :=
  .next (raise .illegal .illegalCmd s)

/-- A CMD write issues exactly one command, which runs to completion (20_memory.md R56). -/
def runCommandWord (w : Word) (s : State) : Host.Outcome State Fault Refusal :=
  match decode w with
  | .command i => exec i s
  | .illegal _ => execIllegal s

/-- A write to a target: a command, a field store (R54), or nothing for a read-only one (R55). -/
def State.writeTarget (t : PortTarget) (v : Word) (s : State) : Host.Outcome State Fault Refusal :=
  match t with
  | .cmd => runCommandWord v s
  | .reqUnit => .next (s.setReqUnit (v.extractLsb' 0 8))
  | .reqFc => .next (s.setReqFc (v.extractLsb' 0 8))
  | .reqAddr => .next (s.setReqAddr (v.extractLsb' 0 16))
  | .reqQty => .next (s.setReqQty (v.extractLsb' 0 16))
  | .inLen => .next (s.setInLen (v.extractLsb' 0 9))
  | .inBuf i => .next (s.setInCell i (v.extractLsb' 0 8))
  | .status => .next s
  | .crcAcc => .next s
  | .outLen => .next s
  | .respUnit => .next s
  | .respFc => .next s
  | .respReg => .next s
  | .respDevid => .next s
  | .errInfo => .next s
  | .param => .next s
  | .outBuf _ => .next s

/-! ## Accesses -/

/-- R51: an access is admitted when its size is 4, its offset a multiple of 4 and mapped. Any other
is refused, under the first of the three that fails (log entry 6). -/
def admitAccess (size off : Nat) (s : State) (k : PortTarget → Host.Outcome State Fault Refusal) :
    Host.Outcome State Fault Refusal :=
  if size ≠ 4 then .refused (.badAccessSize size)
  else if off % 4 ≠ 0 then .refused (.misalignedOffset off)
  else
    match portTarget s.cfg.bufSize off with
    | some t => k t
    | none => .refused (.unmappedOffset off)

/-- The host is given the word, or the cell holds no value (R53). -/
def answerRead (o : Option Word) (s : State) : Host.Outcome State Fault Refusal :=
  match o with
  | some w => .next (s.pushReply w)
  | none => .fault .unwrittenByte

/-- One event at the port. -/
def portEvent (e : PortEvent) (s : State) : Host.Outcome State Fault Refusal :=
  match e with
  | .read size off => admitAccess size off s fun t => answerRead (s.readTarget t) s
  | .write size off v => admitAccess size off s fun t => s.writeTarget t v
  | .reset => .next s.applyReset

end Sys2Proof.Machine
end

