-- ==== Sys2Proof/Machine/Step.lean ====
section
/-! DEFINITION. One step of the machine: the next event at the port, in the host's order (20_memory.md R65). -/

namespace Sys2Proof.Machine

/-- The next event takes effect; with none to come the block "does nothing, and all state is held"
(60_exceptions.md R193; log entry 2). -/
def step (s : State) : Host.Outcome State Fault Refusal :=
  match s.events with
  | [] => .next s
  | e :: rest => portEvent e (s.setEvents rest)

/-- The state with a host write of an opcode-table word to CMD in front of the events to come: the
block fetches nothing (20_memory.md R68), so this is where a step takes its next command from
(log entry 10). -/
def State.withFetchWord (s : State) (nbits w : Nat) : State :=
  s.setEvents (.write 4 0x000 (tableWord nbits w) :: s.events)

end Sys2Proof.Machine
end

