-- ==== Sys2Proof/Machine/Script.lean ====
section
/-! DEFINITION. The host's script notation and pseudo-instructions as the port accesses they issue
(30_encoding.md R94, R95). The host's own control flow is outside the block: an expansion that depends
on words the host has read takes them as arguments (log entry 14). -/

namespace Sys2Proof.Machine

/-- `wr REG, value` -/
def scriptWr (t : PortTarget) (v : Word) : PortEvent := .write 4 t.offset v

/-- `rd REG` -/
def scriptRd (t : PortTarget) : PortEvent := .read 4 t.offset

/-- `crc.init`, `crc.update imm8`, `crc.buf`, `build.read`, `build.frame`, `parse`: the command's canonical
word is written to CMD. -/
def scriptCmd (i : Instr) : PortEvent := scriptWr .cmd (encode i)

/-- `wr IN_BUF[i], b0 ; wr IN_BUF[i+1], b1 ; ...` -/
def scriptFill (i : Nat) (bs : List Byte) : List PortEvent :=
  match bs with
  | [] => []
  | b :: rest => scriptWr (.inBuf i) (b.setWidth 32) :: scriptFill (i + 1) rest

/-- `load.in b0, ..., bk`: every byte before IN_LEN. -/
def scriptLoadIn (bs : List Byte) : List PortEvent :=
  scriptFill 0 bs ++ [scriptWr .inLen (BitVec.ofNat 32 bs.length)]

/-- `crc.seq b0, ..., bk` -/
def scriptCrcSeq (bs : List Byte) : List PortEvent :=
  scriptCmd .crcInit :: bs.map fun b => scriptCmd (.crcUpdate b)

/-- `req.read u, f, a, q` -/
def scriptReqRead (u f : Byte) (a q : U16) : List PortEvent :=
  [ scriptWr .reqUnit (u.setWidth 32), scriptWr .reqFc (f.setWidth 32),
    scriptWr .reqAddr (a.setWidth 32), scriptWr .reqQty (q.setWidth 32), scriptCmd .buildRead ]

/-- `req.frame u, f, p...` -/
def scriptReqFrame (u f : Byte) (p : List Byte) : List PortEvent :=
  [scriptWr .reqUnit (u.setWidth 32), scriptWr .reqFc (f.setWidth 32)] ++ scriptLoadIn p ++ [scriptCmd .buildFrame]

/-- `parse.frame b...` -/
def scriptParseFrame (bs : List Byte) : List PortEvent := scriptLoadIn bs ++ [scriptCmd .parse]

/-- `rd OUT_BUF[i] -> $b ; wr IN_BUF[i], $b` for i from `i` on, when the words read are `ws`. -/
def scriptCopyCells (i : Nat) (ws : List Word) : List PortEvent :=
  match ws with
  | [] => []
  | w :: rest => scriptRd (.outBuf i) :: scriptWr (.inBuf i) w :: scriptCopyCells (i + 1) rest

/-- `copy.out`, when OUT_LEN reads as the number of `ws` and the cells read as `ws`. -/
def scriptCopyOut (ws : List Word) : List PortEvent :=
  [scriptRd .outLen] ++ scriptCopyCells 0 ws ++ [scriptWr .inLen (BitVec.ofNat 32 ws.length)]

end Sys2Proof.Machine
end

