-- ==== Sys2Proof/Safety.lean ====
section
/-! DEFINITION. The terms claims are stated in: the invariant of the state, the frame in IN_BUF, the frame in
OUT_BUF, and what a command may write. -/

namespace Sys2Proof.Machine

/-! ## The invariant -/

/-- Both buffers are in canonical form: no cell at an index ≥ N (20_memory.md R70). -/
abbrev State.BuffersWf (s : State) : Prop :=
  s.inBuf.wf s.unlisted s.cfg.bufSize ∧ s.outBuf.wf s.unlisted s.cfg.bufSize

/-- The field values that 10_state.md R44, R23, R30, R32, R34, R35 allow, and "Any status other than OK
writes 0" of R31 to R34 (RESP_FC = 0 marks it: a successful parse writes 1 to 4 there). -/
abbrev State.FieldsLegal (s : State) : Prop :=
  s.status ≤ 8
  ∧ s.respFc ≤ 4
  ∧ (s.respFc = 1 ∨ s.respFc = 2 → s.respReg ≤ 1)
  ∧ (s.outLen = 0 ∨ 4 ≤ s.outLen.toNat ∧ s.outLen.toNat ≤ s.cfg.bufSize)
  ∧ (s.respFc = 0 → s.respUnit = 0 ∧ s.respReg = 0 ∧ s.respDevid = 0)
  ∧ (s.respFc ≠ 0 → s.respDevid = s.cfg.deviceId ∧ s.errInfo = noErrInfo)
  ∧ (s.errInfo.known = true → 1 ≤ s.errInfo.code ∧ s.errInfo.code ≤ 8)

/-- OUT_BUF[0..OUT_LEN-1] holds the bytes `f`. -/
abbrev State.OutHolds (s : State) (f : List Byte) : Prop :=
  s.outBuf.readCells s.unlisted 0 s.outLen.toNat = some f

/-- When OUT_LEN marks a frame, OUT_BUF[0..OUT_LEN-1] holds one whose CRC is right (41_build.md R123). -/
abbrev State.OutFrameValid (s : State) : Prop :=
  s.outLen ≠ 0 → (s.outBuf.readCells s.unlisted 0 s.outLen.toNat).any crcOk = true

/-- The invariant that every step keeps. -/
abbrev State.Inv (s : State) : Prop :=
  s.cfg.Legal ∧ s.BuffersWf ∧ s.FieldsLegal ∧ s.OutFrameValid

/-! ## The frame PARSE reads -/

/-- IN_BUF[0..L-1] holds the bytes `f`, L = IN_LEN.LEN, and L ≤ N. -/
abbrev State.HoldsFrame (s : State) (f : List Byte) : Prop :=
  s.frameLen ≤ s.cfg.bufSize ∧ s.inBuf.readCells s.unlisted 0 s.frameLen = some f

/-- Byte i of a frame; read only where i < length. -/
abbrev frameAt (f : List Byte) (i : Nat) : Byte := f.getD i 0

/-- The big-endian word at offset k of a frame (30_encoding.md R92). -/
abbrev frameWordAt (f : List Byte) (k : Nat) : U16 := joinBytes (frameAt f k) (frameAt f (k + 1))

/-! ## What steps may write -/

/-- The state after a PARSE that ends in a status other than OK (60_exceptions.md R184): STATUS.CODE, the
four RESP registers 0, and ERR_INFO. -/
def parseErrorState (code : BitVec 4) (errCode : Byte) (known : Bool) (s : State) : State :=
  { s with status := code, respUnit := 0, respFc := 0, respReg := 0, respDevid := 0,
           errInfo := ⟨errCode, known⟩ }

/-- The state after a PARSE that ends in OK (42_parse.md R161). -/
def parseOkState (unit fc : Byte) (reg : U16) (s : State) : State :=
  { s with status := 0, respUnit := unit, respFc := fc, respReg := reg, respDevid := s.cfg.deviceId,
           errInfo := ⟨0, false⟩ }

/-- The mapped offsets of 20_memory.md R52, with N cells in each buffer. -/
abbrev mappedOffset (n off : Nat) : Prop :=
  (off % 4 = 0 ∧ off ≤ 0x038) ∨ (∃ i < n, off = 0x400 + 4 * i) ∨ (∃ i < n, off = 0x800 + 4 * i)

/-- An access to the port that is no write at CMD's offset. -/
abbrev PortEvent.isPlainAccess (e : PortEvent) : Prop :=
  match e with
  | .read _ _ => True
  | .write _ off _ => off ≠ 0x000
  | .reset => False

/-- How many words the word decode reads, from m = min(L - P_REMAIN_SUB, d): the number of k ≥ 0 for
which 3 + 2k satisfies `cont` (42_parse.md R156, R160). FLOOR: R160's W = max(0, floor_div2(b) + 1) with
b = floor_div2(m). EXACT: 2(3 + 2k) < m + 8, that is k < (m + 2) / 4. -/
def wordsRead (h : HalfMode) (m : Int) : Nat :=
  match h with
  | .floor => (m / 2 / 2 + 1).toNat
  | .exact => ((m + 5) / 4).toNat

end Sys2Proof.Machine
end

