-- ==== Sys2Proof/Certificates/Slice0/Obligations.lean ====
section
/-! DEFINITION. The statements for the provers. Each docstring names the rule of spec/ that it formalises. -/

open Sys2Proof Sys2Proof.Machine

/-! ## The command word (30_encoding.md) -/

/-- 30_encoding.md R96: each example word is the command's canonical word and decodes to it, and the illegal
examples decode to none. -/
def Obligations.SpecExampleWordsDecode : Prop :=
  (∀ p ∈ ([ (.crcInit, 0x00000001), (.crcUpdate 0x7A, 0x00007A02), (.crcUpdate 0x00, 0x00000002),
            (.crcBuf, 0x00000003), (.buildRead, 0x00000010), (.buildFrame, 0x00000011),
            (.parse, 0x00000020) ] : List (Instr × Word)), encode p.1 = p.2 ∧ decode p.2 = .command p.1)
  ∧ ∀ w ∈ ([0x00000000, 0x00000004, 0x00000012, 0x00000021, 0x00010010] : List Word), ∃ y, decode w = .illegal y

/-- 30_encoding.md R81, R82, R94: decoding the canonical word of an instruction gives the instruction back,
and the canonical word of what a word decodes to is that word with the don't-care IMM8 cleared. -/
def Obligations.DecodeEncodeAgree : Prop :=
  (∀ i : Instr, decode (encode i) = .command i)
  ∧ ∀ (w : Word) (i : Instr), decode w = .command i →
      encode i = if w.setWidth 8 = (0x02 : Byte) then w else w &&& 0x000000FF

/-- 30_encoding.md R82: the opcode table, row by row; "A word w selects a row when (w & mask) = match", and
the decoder of R81 finds the command of exactly the row selected, and none where no row is. -/
def Obligations.DecoderFollowsOpcodeTable : Prop :=
  opcodeTable.map (fun r => (r.mnemonic, r.matchBits, r.mask)) =
    [ ("CRC_INIT", 0x00000001, 0xFFFF00FF), ("CRC_UPDATE", 0x00000002, 0xFFFF00FF),
      ("CRC_BUF", 0x00000003, 0xFFFF00FF), ("BUILD_READ", 0x00000010, 0xFFFF00FF),
      ("BUILD_FRAME", 0x00000011, 0xFFFF00FF), ("PARSE", 0x00000020, 0xFFFF00FF) ]
  ∧ ∀ w : Word,
      (∀ r ∈ opcodeTable, w &&& r.mask = r.matchBits ↔ ∃ i, decode w = .command i ∧ i.mnemonic = r.mnemonic)
      ∧ ((∃ y, decode w = .illegal y) ↔ ∀ r ∈ opcodeTable, w &&& r.mask ≠ r.matchBits)

/-- 30_encoding.md R84: two words that differ in IMM8 only decode alike unless they name CRC_UPDATE. -/
def Obligations.ImmediateIgnoredByOtherCommands : Prop :=
  ∀ w w' : Word, w &&& 0xFFFF00FF = w' &&& 0xFFFF00FF → w.setWidth 8 ≠ (0x02 : Byte) → decode w = decode w'

/-- 30_encoding.md R85: a CMD write with w[31:16] ≠ 0, or with w[7:0] unassigned, writes STATUS.CODE <- 8 and
changes nothing else. -/
def Obligations.IllegalCommandOnlySetsStatus : Prop :=
  ∀ (s : State) (w : Word) (rest : List PortEvent), s.events = .write 4 0x000 w :: rest →
    (w.toNat / 65536 ≠ 0 ∨ w.toNat % 256 ∉ [0x01, 0x02, 0x03, 0x10, 0x11, 0x20]) →
    step s = .next { s with events := rest, status := 8 }

/-! ## The step -/

/-- 20_memory.md R56: a write to CMD issues exactly one command, the one its word decodes to, which runs to
completion as part of that access: the step is `exec` of it once the access is taken from the events. -/
def Obligations.StepRunsDecodedCommand : Prop :=
  ∀ (s : State) (w : Word) (i : Instr) (rest : List PortEvent),
    s.events = .write 4 0x000 w :: rest → decode w = .command i → step s = exec i { s with events := rest }

/-- The model's own interface (log entry 10): the step after `withFetchWord` runs the instruction that the
opcode-table word decodes to, on the state as it was. -/
def Obligations.FetchWordStepRunsTableWord : Prop :=
  ∀ (s : State) (nbits w : Nat) (i : Instr), decodeTableWord nbits w = some i →
    step (s.withFetchWord nbits w) = exec i s

/-- 60_exceptions.md R193 as the model reads it (log entry 2): with no access to come the block holds all
state. -/
def Obligations.IdleStepHoldsState : Prop :=
  ∀ s : State, s.events = [] → step s = .next s

/-! ## Reset (70_reset_and_hazards.md) -/

/-- 70_reset_and_hazards.md R200: what every register reads after reset, reserved bits included, and what
every buffer cell holds, under ZERO and under UNDEF. -/
def Obligations.ResetStateValues : Prop :=
  State.reset = State.resetOf Config.hw
  ∧ ∀ c : Config,
      (State.resetOf c).cfg = c
      ∧ (State.resetOf c).readTarget .status = some 0
      ∧ (State.resetOf c).readTarget .crcAcc = some 0x0000FFFF
      ∧ (State.resetOf c).readTarget .param = some (paramWord c)
      ∧ (∀ p ∈ ([.reqUnit, .reqFc, .reqAddr, .reqQty, .inLen, .outLen, .respUnit, .respFc, .respReg, .respDevid,
            .errInfo] : List PortTarget), (State.resetOf c).readTarget p = some 0)
      ∧ (c.bufReset = .zero → ∀ i, (State.resetOf c).inCell i = some 0 ∧ (State.resetOf c).outCell i = some 0)
      ∧ (c.bufReset = .undef → ∀ i, (State.resetOf c).inCell i = none ∧ (State.resetOf c).outCell i = none)

/-- The reset input as an event (log entry 9): from any state it leaves the reset state of the same
configuration, and the host's side of the port as it was. -/
def Obligations.ResetEventRestoresReset : Prop :=
  ∀ (s : State) (rest : List PortEvent), s.events = .reset :: rest →
    step s = .next { State.resetOf s.cfg with events := rest, replies := s.replies }

/-! ## The port (20_memory.md) -/

/-- 20_memory.md R51, R52: an access is refused exactly when its size is not 4, its offset is not a multiple
of 4, or its offset is not mapped. -/
def Obligations.AccessRefusedExactlyWhenNotAdmitted : Prop :=
  ∀ (s : State) (size off : Nat) (v : Word) (rest : List PortEvent), s.cfg.Legal →
    s.events = .read size off :: rest ∨ s.events = .write size off v :: rest →
    ((∃ r, step s = .refused r) ↔ ¬(size = 4 ∧ off % 4 = 0 ∧ mappedOffset s.cfg.bufSize off))

/-- 20_memory.md R53: what a read of each mapped register and window word returns, every reserved bit 0, and
that a read changes nothing else; a cell that holds no value faults. -/
def Obligations.ReadReturnsFields : Prop :=
  ∀ (s : State) (rest : List PortEvent), s.cfg.Legal →
    (∀ p ∈ [ (0x000, 0), (0x004, s.status.toNat), (0x008, s.crcAcc.toNat), (0x00C, s.reqUnit.toNat),
             (0x010, s.reqFc.toNat), (0x014, s.reqAddr.toNat), (0x018, s.reqQty.toNat), (0x01C, s.inLen.toNat),
             (0x020, s.outLen.toNat), (0x024, s.respUnit.toNat), (0x028, s.respFc.toNat),
             (0x02C, s.respReg.toNat), (0x030, s.respDevid.toNat),
             (0x034, s.errInfo.code.toNat + 256 * s.errInfo.known.toNat),
             (0x038, s.cfg.bufSize + 4096 * (decide (s.cfg.half = .exact)).toNat
               + 8192 * (decide (s.cfg.bufReset = .undef)).toNat + 65536 * s.cfg.remainSub
               + 16777216 * s.cfg.deviceId.toNat) ],
        step { s with events := .read 4 p.1 :: rest } =
          .next { s with events := rest, replies := BitVec.ofNat 32 p.2 :: s.replies })
    ∧ ∀ i < s.cfg.bufSize,
        (∀ b, s.inCell i = some b → step { s with events := .read 4 (0x400 + 4 * i) :: rest } =
          .next { s with events := rest, replies := BitVec.ofNat 32 b.toNat :: s.replies })
        ∧ (s.inCell i = none → step { s with events := .read 4 (0x400 + 4 * i) :: rest } = .fault .unwrittenByte)
        ∧ (∀ b, s.outCell i = some b → step { s with events := .read 4 (0x800 + 4 * i) :: rest } =
          .next { s with events := rest, replies := BitVec.ofNat 32 b.toNat :: s.replies })
        ∧ (s.outCell i = none → step { s with events := .read 4 (0x800 + 4 * i) :: rest } = .fault .unwrittenByte)

/-- 20_memory.md R54: a write to an operand register stores the field's bits of v and discards the rest; a write to
an IN_BUF window word stores v[7:0] in that cell. Every other cell and everything else is as before. -/
def Obligations.WriteStoresField : Prop :=
  (∀ (s : State) (v : Word) (rest : List PortEvent),
    step { s with events := .write 4 0x00C v :: rest } =
      .next { s with events := rest, reqUnit := BitVec.ofNat 8 (v.toNat % 256) }
    ∧ step { s with events := .write 4 0x010 v :: rest } =
      .next { s with events := rest, reqFc := BitVec.ofNat 8 (v.toNat % 256) }
    ∧ step { s with events := .write 4 0x014 v :: rest } =
      .next { s with events := rest, reqAddr := BitVec.ofNat 16 (v.toNat % 65536) }
    ∧ step { s with events := .write 4 0x018 v :: rest } =
      .next { s with events := rest, reqQty := BitVec.ofNat 16 (v.toNat % 65536) }
    ∧ step { s with events := .write 4 0x01C v :: rest } =
      .next { s with events := rest, inLen := BitVec.ofNat 9 (v.toNat % 512) })
  ∧ ∀ (s : State) (i : Nat) (v : Word) (rest : List PortEvent), s.cfg.Legal → s.BuffersWf → i < s.cfg.bufSize →
    ∃ t, step { s with events := .write 4 (0x400 + 4 * i) v :: rest } = .next t
      ∧ t = { s with events := rest, inBuf := t.inBuf }
      ∧ t.inCell i = some (BitVec.ofNat 8 (v.toNat % 256))
      ∧ ∀ j, j ≠ i → t.inCell j = s.inCell j

/-- 20_memory.md R55: a write to a read-only register or an OUT_BUF window word changes no state. -/
def Obligations.ReadOnlyWriteIgnored : Prop :=
  ∀ (s : State) (v : Word) (rest : List PortEvent), s.cfg.Legal →
    (∀ off ∈ [0x004, 0x008, 0x020, 0x024, 0x028, 0x02C, 0x030, 0x034, 0x038],
        step { s with events := .write 4 off v :: rest } = .next { s with events := rest })
    ∧ ∀ i < s.cfg.bufSize,
        step { s with events := .write 4 (0x800 + 4 * i) v :: rest } = .next { s with events := rest }

/-- 20_memory.md R63, 70_reset_and_hazards.md R201: an access that is no CMD write leaves every result
register, CRC_ACC, OUT_BUF and the configuration as they were. -/
def Obligations.PlainAccessLeavesOutputs : Prop :=
  ∀ (s t : State) (e : PortEvent) (rest : List PortEvent), s.events = e :: rest → e.isPlainAccess →
    step s = .next t →
    t.cfg = s.cfg ∧ t.status = s.status ∧ t.crcAcc = s.crcAcc ∧ t.outLen = s.outLen ∧ t.outBuf = s.outBuf
    ∧ t.respUnit = s.respUnit ∧ t.respFc = s.respFc ∧ t.respReg = s.respReg ∧ t.respDevid = s.respDevid
    ∧ t.errInfo = s.errInfo ∧ t.events = rest

/-- 20_memory.md R63: "A write to a read-write register or to an IN_BUF cell is idempotent: writing the same
value again changes nothing." -/
def Obligations.OperandWriteIdempotent : Prop :=
  ∀ (s t : State) (off : Nat) (v : Word) (rest : List PortEvent), s.cfg.Legal → s.BuffersWf → off ≠ 0x000 →
    s.events = .write 4 off v :: rest → step s = .next t →
    step { t with events := .write 4 off v :: rest } = .next t

/-- 10_state.md R36: what PARAM reads, field by field, and on this hardware; that a write to it is ignored, and that
no step changes what it reads, reset included. -/
def Obligations.ParamHardwiredToConfiguration : Prop :=
  (∀ (s : State) (v : Word) (rest : List PortEvent),
      step { s with events := .read 4 0x038 :: rest } =
        .next { s with events := rest, replies := paramWord s.cfg :: s.replies }
      ∧ step { s with events := .write 4 0x038 v :: rest } = .next { s with events := rest })
  ∧ (∀ c : Config, c.Legal →
      (paramWord c).toNat = c.bufSize + (if c.half = .exact then 2 ^ 12 else 0)
        + (if c.bufReset = .undef then 2 ^ 13 else 0) + c.remainSub * 2 ^ 16 + c.deviceId.toNat * 2 ^ 24)
  ∧ paramWord Config.hw = 0x17050100
  ∧ ∀ s t : State, step s = .next t → t.cfg = s.cfg

/-! ## The CRC engine (40_crc.md section 1) -/

/-- 40_crc.md R100: one bit step, in arithmetic, and the rule's examples. -/
def Obligations.CrcStepShiftsAndXors : Prop :=
  (∀ acc : U16, (crcStep acc).toNat = (acc.toNat / 2) ^^^ (if acc.toNat % 2 = 1 then 0xA001 else 0))
  ∧ crcStep 0xFFFF = 0xDFFE ∧ crcStep 0x0001 = 0xA001 ∧ crcStep 0x8000 = 0x4000 ∧ crcStep 0x0000 = 0x0000

/-- 40_crc.md R101: one byte, and the rule's examples. -/
def Obligations.CrcByteFoldsOneByte : Prop :=
  (∀ (acc : U16) (b : Byte), crcByte acc b = crcStep^[8] (acc ^^^ BitVec.ofNat 16 b.toNat))
  ∧ crcByte 0xFFFF 0x01 = 0x807E ∧ crcByte 0xFFFF 0x00 = 0x40BF ∧ crcByte 0xFFFF 0xFF = 0x00FF
  ∧ crcByte 0x0000 0x01 = 0xC0C1 ∧ crcByte 0x0000 0x00 = 0x0000

/-- 40_crc.md R102, R103: the left fold from 0xFFFF, with no final XOR; the empty sequence; folding piece by
piece; 0xA001 is the bit-reversal of 0x8005. -/
def Obligations.Crc16FoldsFromInitial : Prop :=
  crc16 [] = 0xFFFF
  ∧ (∀ (bs : List Byte) (b : Byte), crc16 (bs ++ [b]) = crcByte (crc16 bs) b)
  ∧ (∀ s t : List Byte, crc16 (s ++ t) = t.foldl crcByte (crc16 s))
  ∧ (0x8005 : U16).reverse = 0xA001

/-- 40_crc.md R104: a frame of length at least 2 passes the check exactly when it is some bytes followed by
their CRC, low byte first. -/
def Obligations.CrcOkExactlyWhenCrcAppended : Prop :=
  ∀ f : List Byte, crcOk f = true ↔
    ∃ bs : List Byte, f = bs ++ [BitVec.ofNat 8 ((crc16 bs).toNat % 256), BitVec.ofNat 8 ((crc16 bs).toNat / 256)]

/-- 40_crc.md R108, last corner case: over a whole frame with a correct CRC the engine gives 0x0000. -/
def Obligations.CrcOfWholeFrameIsZero : Prop :=
  ∀ f : List Byte, crcOk f = true → crc16 f = 0x0000

/-! ## The CRC commands (40_crc.md section 2) -/

/-- 40_crc.md R106: CRC_INIT, its words with IMM8 ignored, and its effect from every state. -/
def Obligations.CrcInitSetsAccumulator : Prop :=
  (encode .crcInit = 0x00000001 ∧ ∀ w : Word, w &&& 0xFFFF00FF = 0x00000001 → decode w = .command .crcInit)
  ∧ ∀ s : State, exec .crcInit s = .next { s with crcAcc := 0xFFFF, status := 0 }

/-- 40_crc.md R107: CRC_UPDATE, its word for every byte, and its effect on every accumulator value. -/
def Obligations.CrcUpdateFoldsImmediate : Prop :=
  ∀ (imm8 : Byte) (s : State),
    decode ((imm8.setWidth 32 <<< 8) ||| 0x02) = .command (.crcUpdate imm8)
    ∧ exec (.crcUpdate imm8) s = .next { s with crcAcc := crcByte s.crcAcc imm8, status := 0 }

/-- 40_crc.md R108: CRC_BUF's words; its effect over IN_BUF[0..L-1], from 0xFFFF whatever CRC_ACC holds; LEN_ERROR when L > N, with
CRC_ACC unchanged. -/
def Obligations.CrcBufComputesCrc16 : Prop :=
  (encode .crcBuf = 0x00000003 ∧ ∀ w : Word, w &&& 0xFFFF00FF = 0x00000003 → decode w = .command .crcBuf)
  ∧ (∀ (s : State) (f : List Byte), s.HoldsFrame f → exec .crcBuf s = .next { s with crcAcc := crc16 f, status := 0 })
  ∧ ∀ s : State, s.cfg.bufSize < s.inLen.toNat → exec .crcBuf s = .next { s with status := 7 }

/-- 40_crc.md R109 (with R95's expansion of crc.seq): CRC_INIT and one CRC_UPDATE per byte leave CRC_ACC at
crc16 of the bytes, which is what CRC_BUF gives over them, and change nothing but CRC_ACC and STATUS. -/
def Obligations.StreamingCrcMatchesCrc16 : Prop :=
  ∀ (s : State) (bs : List Byte) (rest : List PortEvent),
    Sys2Proof.core.run (bs.length + 1) { s with events := scriptCrcSeq bs ++ rest } =
      .next { s with events := rest, crcAcc := crc16 bs, status := 0 }

/-- 10_state.md R24, 70_reset_and_hazards.md R212: a step that changes CRC_ACC was one of the three CRC commands,
or reset. -/
def Obligations.OnlyCrcCommandsWriteCrcAcc : Prop :=
  ∀ s t : State, step s = .next t → t.crcAcc ≠ s.crcAcc →
    ∃ rest, s.events = .reset :: rest
      ∨ ∃ w, s.events = .write 4 0x000 w :: rest
          ∧ (decode w = .command .crcInit ∨ (∃ b, decode w = .command (.crcUpdate b)) ∨ decode w = .command .crcBuf)

/-! ## The frame encoder (41_build.md) -/

/-- 41_build.md R120 with the layout of 30_encoding.md R87: the words of the command, the eight bytes, OUT_LEN, STATUS, the other cells of
OUT_BUF and everything else; and INVALID_BUILD_PARAMS for every other function code. -/
def Obligations.BuildReadEmitsRequestFrame : Prop :=
  (encode .buildRead = 0x00000010 ∧ ∀ w : Word, w &&& 0xFFFF00FF = 0x00000010 → decode w = .command .buildRead)
  ∧ (∀ s : State, s.cfg.Legal → s.BuffersWf → (s.reqFc = 1 ∨ s.reqFc = 2 ∨ s.reqFc = 3 ∨ s.reqFc = 4) →
    ∃ (t : State) (head : List Byte), exec .buildRead s = .next t
      ∧ head = [ s.reqUnit, s.reqFc, BitVec.ofNat 8 (s.reqAddr.toNat / 256), BitVec.ofNat 8 (s.reqAddr.toNat % 256),
                 BitVec.ofNat 8 (s.reqQty.toNat / 256), BitVec.ofNat 8 (s.reqQty.toNat % 256) ]
      ∧ t = { s with status := 0, outLen := 8, outBuf := t.outBuf }
      ∧ t.OutHolds (head ++ [ BitVec.ofNat 8 ((crc16 head).toNat % 256), BitVec.ofNat 8 ((crc16 head).toNat / 256) ])
      ∧ ∀ j, 8 ≤ j → t.outCell j = s.outCell j)
  ∧ ∀ s : State, ¬(s.reqFc = 1 ∨ s.reqFc = 2 ∨ s.reqFc = 3 ∨ s.reqFc = 4) →
      exec .buildRead s = .next { s with status := 4, outLen := 0 }

/-- 41_build.md R121: the accepted function codes are exactly 1, 2, 3 and 4, out of all 256. -/
def Obligations.BuildReadAcceptsReadCodesOnly : Prop :=
  ∀ s : State, ∃ t, exec .buildRead s = .next t ∧ (t.status = 0 ∨ t.status = 4)
    ∧ (t.status = 0 ↔ 1 ≤ s.reqFc.toNat ∧ s.reqFc.toNat ≤ 4)

/-- 41_build.md R122 with the layout of 30_encoding.md R88: the words of the command, the frame, OUT_LEN, STATUS, the other cells of OUT_BUF
and everything else; and LEN_ERROR when P + 4 > N, with OUT_BUF unchanged. -/
def Obligations.BuildFrameEmitsGenericFrame : Prop :=
  (encode .buildFrame = 0x00000011 ∧ ∀ w : Word, w &&& 0xFFFF00FF = 0x00000011 → decode w = .command .buildFrame)
  ∧ (∀ (s : State) (p : List Byte), s.cfg.Legal → s.BuffersWf → s.inLen.toNat + 4 ≤ s.cfg.bufSize → s.HoldsFrame p →
    ∃ (t : State) (head : List Byte), exec .buildFrame s = .next t
      ∧ head = [s.reqUnit, s.reqFc] ++ p
      ∧ t = { s with status := 0, outLen := BitVec.ofNat 9 (s.inLen.toNat + 4), outBuf := t.outBuf }
      ∧ t.OutHolds (head ++ [ BitVec.ofNat 8 ((crc16 head).toNat % 256), BitVec.ofNat 8 ((crc16 head).toNat / 256) ])
      ∧ ∀ j, s.inLen.toNat + 4 ≤ j → t.outCell j = s.outCell j)
  ∧ ∀ s : State, s.cfg.bufSize < s.inLen.toNat + 4 →
      exec .buildFrame s = .next { s with status := 7, outLen := 0 }

/-- 41_build.md R123: a successful build leaves a frame in OUT_BUF[0..OUT_LEN-1] that satisfies crc_ok. -/
def Obligations.BuiltFrameSatisfiesCrcOk : Prop :=
  ∀ (s t : State) (i : Instr), s.cfg.Legal → s.BuffersWf → (i = .buildRead ∨ i = .buildFrame) →
    exec i s = .next t → t.status = 0 → ∃ f, t.OutHolds f ∧ crcOk f = true

/-! ## The frame parser (42_parse.md) -/

/-- 42_parse.md R141: L > N gives LEN_ERROR, whatever the cells hold. -/
def Obligations.ParseRejectsLongFrames : Prop :=
  ∀ s : State, s.cfg.bufSize < s.inLen.toNat → exec .parse s = .next (parseErrorState 7 0 false s)

/-- 42_parse.md R143: the CRC is checked first. A frame of L < 2 is malformed; one whose CRC does not match ends
in CRC_MISMATCH whatever else it holds; and one of L = 2 that passes is FF FF and ends in FRAME_MALFORMED. -/
def Obligations.ParseChecksCrcFirst : Prop :=
  ∀ (s : State) (f : List Byte), s.HoldsFrame f →
    (f.length < 2 → exec .parse s = .next (parseErrorState 5 0 false s))
    ∧ (2 ≤ f.length →
        (crc16 (f.take (f.length - 2))).toNat ≠
          256 * (frameAt f (f.length - 1)).toNat + (frameAt f (f.length - 2)).toNat →
        exec .parse s = .next (parseErrorState 1 0 false s))
    ∧ (f.length = 2 → crcOk f = true → f = [0xFF, 0xFF] ∧ exec .parse s = .next (parseErrorState 5 0 false s))

/-- MRP §8 (95_test_vectors.md L1.3), 42_parse.md R143: on a frame of length at least 2, PARSE reports CRC_MISMATCH
exactly when the CRC is wrong. -/
def Obligations.CrcMismatchExactlyOnBadCrc : Prop :=
  ∀ (s : State) (f : List Byte), s.HoldsFrame f → 2 ≤ f.length →
    ∃ t, exec .parse s = .next t ∧ (t.status = 1 ↔ crcOk f = false)

/-- MRP §8 (95_test_vectors.md L1.4): changing any one byte of a frame whose CRC is right makes PARSE end in
CRC_MISMATCH. -/
def Obligations.SingleByteCorruptionDetected : Prop :=
  ∀ (s : State) (f : List Byte) (k : Nat) (b : Byte), crcOk f = true → k < f.length → b ≠ frameAt f k →
    s.HoldsFrame (f.set k b) → exec .parse s = .next (parseErrorState 1 0 false s)

/-- 42_parse.md R144, R145: with the CRC valid, byte 1 bit 7 set ends in EXCEPTION_RESPONSE with byte 2 as the code,
KNOWN for 0x01..0x08 only, whatever byte 1's other bits and the rest of the frame hold; without a byte 2 it is
malformed. -/
def Obligations.ParseReportsExceptionResponse : Prop :=
  ∀ (s : State) (f : List Byte), s.HoldsFrame f → crcOk f = true → 0x80 ≤ (frameAt f 1).toNat →
    (3 ≤ f.length → exec .parse s = .next (parseErrorState 2 (frameAt f 2)
        (decide (0x01 ≤ (frameAt f 2).toNat ∧ (frameAt f 2).toNat ≤ 0x08)) s))
    ∧ (f.length = 2 → exec .parse s = .next (parseErrorState 5 0 false s))

/-- 42_parse.md R148: with the CRC valid, byte 1 in {0} ∪ {5..0x7F} ends in UNSUPPORTED_FC with that code, KNOWN
clear. -/
def Obligations.ParseReportsUnsupportedCode : Prop :=
  ∀ (s : State) (f : List Byte), s.HoldsFrame f → crcOk f = true →
    ((frameAt f 1).toNat = 0 ∨ 5 ≤ (frameAt f 1).toNat ∧ (frameAt f 1).toNat ≤ 0x7F) →
    exec .parse s = .next (parseErrorState 3 (frameAt f 1) false s)

/-- 42_parse.md R150 to R154, R161: function codes 1 and 2. With eff = min(d, L - 5): NO_VALUE when d = 0 or L ≤ 5,
else OK with bit 7 of byte 2 + eff. -/
def Obligations.ParseBitDecodeReportsTerminalBit : Prop :=
  ∀ (s : State) (f : List Byte), s.HoldsFrame f → crcOk f = true → (frameAt f 1 = 1 ∨ frameAt f 1 = 2) →
    (((frameAt f 2).toNat = 0 ∨ f.length ≤ 5) → exec .parse s = .next (parseErrorState 6 0 false s))
    ∧ ((frameAt f 2).toNat ≠ 0 → 5 < f.length →
        exec .parse s = .next (parseOkState (frameAt f 0) (frameAt f 1)
          (BitVec.ofNat 16 ((frameAt f (2 + min (frameAt f 2).toNat (f.length - 5))).toNat / 128)) s))

/-- 42_parse.md R155 to R161: function codes 3 and 4, under every P_HALF and P_REMAIN_SUB. With m = min(L -
P_REMAIN_SUB, d) the loop reads W words: NO_VALUE when W = 0; FRAME_MALFORMED when the last of them leaves the
frame; else OK with the word at offset 2 W + 1. -/
def Obligations.ParseWordDecodeReportsTerminalWord : Prop :=
  ∀ (s : State) (f : List Byte) (w : Nat), s.HoldsFrame f → crcOk f = true → (frameAt f 1 = 3 ∨ frameAt f 1 = 4) →
    w = wordsRead s.cfg.half (min ((f.length : Int) - s.cfg.remainSub) (frameAt f 2).toNat) →
    (w = 0 → exec .parse s = .next (parseErrorState 6 0 false s))
    ∧ (w ≠ 0 → f.length ≤ 2 * w + 2 → exec .parse s = .next (parseErrorState 5 0 false s))
    ∧ (w ≠ 0 → 2 * w + 2 < f.length →
        exec .parse s = .next (parseOkState (frameAt f 0) (frameAt f 1) (frameWordAt f (2 * w + 1)) s))

/-- 42_parse.md R160, R157, 70_reset_and_hazards.md R209: a well-formed response with n registers reports register
number n / 2, counting from 0, and with n = 0 the two CRC bytes, under either P_HALF with P_REMAIN_SUB = 5. -/
def Obligations.WellFormedWordResponseReportsMiddleRegister : Prop :=
  ∀ (s : State) (u fc : Byte) (regs : List U16), s.cfg.remainSub = 5 → (fc = 3 ∨ fc = 4) → regs.length ≤ 127 →
    s.HoldsFrame (withCrc ([u, fc, BitVec.ofNat 8 (2 * regs.length)] ++ regs.flatMap beBytes)) →
    (∀ h : regs.length / 2 < regs.length, exec .parse s = .next (parseOkState u fc regs[regs.length / 2] s))
    ∧ (regs = [] → exec .parse s =
        .next (parseOkState u fc (joinBytes (loByte (crc16 [u, fc, 0])) (hiByte (crc16 [u, fc, 0]))) s))

/-- 42_parse.md R158: with P_HALF = FLOOR and P_REMAIN_SUB = 5 no word read is ever out of range, so a frame of
L ≥ 3 with function code 3 or 4 and a valid CRC never ends in FRAME_MALFORMED. -/
def Obligations.FloorWordReadsStayInFrame : Prop :=
  ∀ (s : State) (f : List Byte), s.HoldsFrame f → crcOk f = true → s.cfg.half = .floor → s.cfg.remainSub = 5 →
    (frameAt f 1 = 3 ∨ frameAt f 1 = 4) → ∃ t, exec .parse s = .next t ∧ (t.status = 0 ∨ t.status = 6)
      ∧ (t.status = 6 ↔ f.length ≤ 4)

/-- 42_parse.md R157: the two readings of "÷ 2" agree whenever m = min(L - P_REMAIN_SUB, d) is even. -/
def Obligations.HalfReadingsAgreeOnEvenLimit : Prop :=
  ∀ (s t : State) (f : List Byte), s.HoldsFrame f →
    (min ((f.length : Int) - s.cfg.remainSub) (frameAt f 2).toNat) % 2 = 0 →
    exec .parse { s with cfg := { s.cfg with half := .floor } } = .next t →
    exec .parse { s with cfg := { s.cfg with half := .exact } } =
      .next { t with cfg := { s.cfg with half := .exact } }

/-- 42_parse.md R161, R140: PARSE ends in OK only on a frame in IN_BUF whose CRC is right and whose byte 1 is 1 to
4, with the results of R161; the register value is 0 or 1 for function codes 1 and 2. -/
def Obligations.ParseOkOnlyOnValidFrame : Prop :=
  ∀ s t : State, exec .parse s = .next t → t.status = 0 →
    ∃ (f : List Byte) (reg : U16), s.HoldsFrame f ∧ crcOk f = true
      ∧ (frameAt f 1 = 1 ∨ frameAt f 1 = 2 ∨ frameAt f 1 = 3 ∨ frameAt f 1 = 4)
      ∧ t = parseOkState (frameAt f 0) (frameAt f 1) reg s
      ∧ (frameAt f 1 = 1 ∨ frameAt f 1 = 2 → reg = 0 ∨ reg = 1)

/-- 60_exceptions.md R183, R184 (PARSE): a status other than OK leaves exactly the error write-back: it is one of 1,
2, 3, 5, 6, 7, the RESP registers are 0, and ERR_INFO is as R183 gives. -/
def Obligations.ParseErrorWriteBack : Prop :=
  ∀ s t : State, exec .parse s = .next t → t.status ≠ 0 →
    (t.status = 1 ∨ t.status = 2 ∨ t.status = 3 ∨ t.status = 5 ∨ t.status = 6 ∨ t.status = 7)
    ∧ t = parseErrorState t.status t.errInfo.code t.errInfo.known s
    ∧ (t.status = 2 → t.errInfo.known = decide (0x01 ≤ t.errInfo.code.toNat ∧ t.errInfo.code.toNat ≤ 0x08))
    ∧ (t.status = 3 → t.errInfo.known = false)
    ∧ (t.status ≠ 2 → t.status ≠ 3 → t.errInfo = ⟨0, false⟩)

/-- 42_parse.md R162: PARSE depends on the frame and the configuration only: two states that hold the same frame get
the same results, whatever earlier commands left in their registers and in the cells beyond the frame. -/
def Obligations.ParseDependsOnFrameOnly : Prop :=
  ∀ (s₁ s₂ : State) (f : List Byte), s₁.cfg = s₂.cfg → s₁.HoldsFrame f → s₂.HoldsFrame f →
    ∃ t₁ t₂, exec .parse s₁ = .next t₁ ∧ exec .parse s₂ = .next t₂
      ∧ t₁.status = t₂.status ∧ t₁.respUnit = t₂.respUnit ∧ t₁.respFc = t₂.respFc ∧ t₁.respReg = t₂.respReg
      ∧ t₁.respDevid = t₂.respDevid ∧ t₁.errInfo = t₂.errInfo

/-- 42_parse.md R146: the host's text for code 0x02 and for an unknown code. The other texts are free values (log
entry 13) and nothing is said of them. -/
def Obligations.HostTextOfKnownSource : Prop :=
  hostDescription ⟨0x02, true⟩ = "data address unavailable"
  ∧ ∀ c : Byte, hostDescription ⟨c, false⟩ = "unknown exception code"

/-! ## All commands -/

/-- 10_state.md R43, row by row: each command, the illegal one included, writes only the registers and cells listed
for it. -/
def Obligations.CommandsWriteOnlyTheirOutputs : Prop :=
  ∀ s t : State, s.cfg.Legal →
    (∀ i, (i = .crcInit ∨ (∃ b, i = .crcUpdate b) ∨ i = .crcBuf) → exec i s = .next t →
        t = { s with status := t.status, crcAcc := t.crcAcc } ∧ (t.status ≠ 0 → t.crcAcc = s.crcAcc))
    ∧ (∀ i, (i = .buildRead ∨ i = .buildFrame) → exec i s = .next t →
        t = { s with status := t.status, outLen := t.outLen, outBuf := t.outBuf }
        ∧ (t.status ≠ 0 → t.outLen = 0 ∧ t.outBuf = s.outBuf)
        ∧ (t.status = 0 → (i = .buildRead → t.outLen = 8) ∧ (i = .buildFrame → t.outLen.toNat = s.inLen.toNat + 4)
            ∧ ∀ j, t.outLen.toNat ≤ j → t.outCell j = s.outCell j))
    ∧ (exec .parse s = .next t →
        t = { s with status := t.status, respUnit := t.respUnit, respFc := t.respFc, respReg := t.respReg,
                     respDevid := t.respDevid, errInfo := t.errInfo })
    ∧ (execIllegal s = .next t → t = { s with status := t.status })

/-- 70_reset_and_hazards.md R210: no command changes IN_LEN, IN_BUF, the REQ registers or PARAM, or what the host has
still to do or has been given. -/
def Obligations.CommandsKeepOperands : Prop :=
  ∀ (i : Instr) (s t : State), exec i s = .next t →
    t.cfg = s.cfg ∧ t.inLen = s.inLen ∧ t.inBuf = s.inBuf ∧ t.reqUnit = s.reqUnit ∧ t.reqFc = s.reqFc
    ∧ t.reqAddr = s.reqAddr ∧ t.reqQty = s.reqQty ∧ t.events = s.events ∧ t.replies = s.replies

/-- 10_state.md R41, 60_exceptions.md R182, R183: no command reads STATUS or ERR_INFO, every command overwrites STATUS,
and PARSE overwrites ERR_INFO with a value that does not depend on the old one. -/
def Obligations.NoCommandReadsStatusOrErrInfo : Prop :=
  ∀ (i : Instr) (s : State),
    (∀ c, exec i { s with status := c } = exec i s)
    ∧ ∀ (e : ErrInfo) (t : State), exec i s = .next t →
        ∃ t', exec i { s with errInfo := e } = .next t' ∧ t = { t' with errInfo := t.errInfo }
          ∧ (i ≠ .parse → t'.errInfo = e) ∧ (i = .parse → t'.errInfo = t.errInfo)

/-- 60_exceptions.md R194: under P_BUF_RESET = ZERO every command completes from every state, and no step faults. -/
def Obligations.CommandsTotalUnderZero : Prop :=
  (∀ (i : Instr) (s : State), s.cfg.bufReset = .zero → ∃ t, exec i s = .next t)
  ∧ ∀ (s : State) (x : Fault), s.cfg.bufReset = .zero → step s ≠ .fault x

/-- 00_scope.md R9, 60_exceptions.md R194: a command faults exactly when a cell it consumes holds no value. For PARSE of
a one-byte frame the byte is read before FRAME_MALFORMED is raised: the model's choice, log entry 7. -/
def Obligations.CommandsFaultExactlyOnUnwrittenCells : Prop :=
  ∀ (s : State) (x : Fault),
    (∀ i, (i = .crcInit ∨ (∃ b, i = .crcUpdate b) ∨ i = .buildRead) → exec i s ≠ .fault x)
    ∧ (exec .crcBuf s = .fault x ↔ s.inLen.toNat ≤ s.cfg.bufSize ∧ ∃ j < s.inLen.toNat, s.inCell j = none)
    ∧ (exec .buildFrame s = .fault x ↔ s.inLen.toNat + 4 ≤ s.cfg.bufSize ∧ ∃ j < s.inLen.toNat, s.inCell j = none)
    ∧ (exec .parse s = .fault x ↔ s.inLen.toNat ≤ s.cfg.bufSize ∧ ∃ j < s.inLen.toNat, s.inCell j = none)

/-! ## The whole machine -/

/-- 30_encoding.md R95, 70_reset_and_hazards.md R211: `copy.out` puts the frame of OUT_BUF into IN_BUF with its length
in IN_LEN, gives the host the length and the bytes, and leaves everything else as it was. That the expansion takes the
words the host reads as arguments is the model's choice, log entry 14. -/
def Obligations.CopyOutMovesFrame : Prop :=
  ∀ (s : State) (f : List Byte) (rest : List PortEvent), s.Inv → s.OutHolds f →
    ∃ t, Sys2Proof.core.run (2 * f.length + 2)
          { s with events := scriptCopyOut (f.map (·.setWidth 32)) ++ rest } = .next t
      ∧ t.HoldsFrame f
      ∧ t = { s with events := rest, inLen := s.outLen, inBuf := t.inBuf,
                     replies := (f.map (·.setWidth 32)).reverse ++ [s.outLen.setWidth 32] ++ s.replies }
      ∧ ∀ j, f.length ≤ j → t.inCell j = s.inCell j

/-- 10_state.md R44 and the reset table of 70_reset_and_hazards.md R200: the invariant holds after reset under every
legal configuration, this hardware's among them. -/
def Obligations.InvariantHoldsAtReset : Prop :=
  State.reset.Inv ∧ ∀ c : Config, c.Legal → (State.resetOf c).Inv

/-- 10_state.md R44, R23, R30 to R35, R40, 41_build.md R123, 20_memory.md R70: every step keeps the invariant: legal
field values, no cell at an index ≥ N, RESP registers 0 but after a successful PARSE, and OUT_LEN ≠ 0 only over a frame in
OUT_BUF whose CRC is right. -/
def Obligations.InvariantKeptByEveryStep : Prop :=
  ∀ s t : State, s.Inv → step s = .next t → t.Inv
end

