-- ==== Sys2Proof/Laws/Memory.lean ====
section
/-! SUPPORT. The laws of a frame buffer: what a read after a write gives, that every operation keeps the canonical
form, and that equal contents are equal lists. -/

namespace Sys2Proof.Machine

variable {d : Option Byte} {n : Nat} {m : Memory}

@[simp] theorem Memory.readCell_nil (i : Nat) : Memory.readCell d [] i = d := rfl

theorem Memory.readCell_cons (c : Host.Cell) (rest : Memory) (i : Nat) :
    Memory.readCell d (c :: rest) i = if c.1 = i then some c.2 else Memory.readCell d rest i := rfl

theorem Memory.wf_nil : Memory.wf d n [] := by simp [Memory.wf]

/-- A cell whose index no entry carries reads as unlisted. -/
theorem Memory.readCell_of_not_mem {i : Nat} (h : ∀ c ∈ m, c.1 ≠ i) : m.readCell d i = d := by
  induction m with
  | nil => rfl
  | cons c rest ih =>
    rw [Memory.readCell_cons, if_neg (h c (by simp))]
    exact ih fun x hx => h x (by simp [hx])

/-- A write leaves every other cell alone. -/
theorem Memory.readCell_writeCell_of_ne {i j : Nat} (b : Byte) (h : j ≠ i) :
    (m.writeCell d i b).readCell d j = m.readCell d j := by
  induction m with
  | nil =>
    by_cases hb : some b = d <;> simp [Memory.writeCell, hb, Memory.readCell_cons, h.symm]
  | cons c rest ih =>
    simp only [Memory.writeCell]
    split_ifs with h1 h2 h3 h4
    · rfl
    · simp [Memory.readCell_cons, h.symm]
    · rw [Memory.readCell_cons, if_neg (by omega)]
    · rw [Memory.readCell_cons, Memory.readCell_cons, if_neg h.symm, if_neg (by omega)]
    · rw [Memory.readCell_cons, Memory.readCell_cons, ih]

/-- A read after a write to the same cell gives the byte written. -/
theorem Memory.readCell_writeCell_self (hw : m.wf d n) (i : Nat) (b : Byte) :
    (m.writeCell d i b).readCell d i = some b := by
  induction m with
  | nil =>
    by_cases hb : some b = d <;> simp [Memory.writeCell, hb, Memory.readCell_cons]
  | cons c rest ih =>
    obtain ⟨hp, hc⟩ := hw
    rw [List.pairwise_cons] at hp
    have hrest : Memory.wf d n rest := ⟨hp.2, fun x hx => hc x (by simp [hx])⟩
    simp only [Memory.writeCell]
    split_ifs with h1 h2 h3 h4
    · rw [h2]
      refine Memory.readCell_of_not_mem fun x hx => ?_
      rcases List.mem_cons.1 hx with rfl | hx
      · omega
      · have := hp.1 x hx; omega
    · simp [Memory.readCell_cons]
    · rw [h4]
      exact Memory.readCell_of_not_mem fun x hx => by have := hp.1 x hx; omega
    · simp [Memory.readCell_cons]
    · rw [Memory.readCell_cons, if_neg (by omega), ih hrest]

theorem Memory.mem_writeCell {i : Nat} {b : Byte} {x : Host.Cell} (h : x ∈ m.writeCell d i b) :
    x ∈ m ∨ (x = (i, b) ∧ some b ≠ d) := by
  induction m with
  | nil =>
    simp only [Memory.writeCell] at h
    split_ifs at h with hb
    · simp at h
    · exact .inr ⟨by simpa using h, hb⟩
  | cons c rest ih =>
    simp only [Memory.writeCell] at h
    split_ifs at h with h1 h2 h3 h4
    · exact .inl h
    · rcases List.mem_cons.1 h with rfl | h
      · exact .inr ⟨rfl, h2⟩
      · exact .inl h
    · exact .inl (by simp [h])
    · rcases List.mem_cons.1 h with rfl | h
      · exact .inr ⟨rfl, h4⟩
      · exact .inl (by simp [h])
    · rcases List.mem_cons.1 h with rfl | h
      · simp
      · rcases ih h with h | h
        · exact .inl (by simp [h])
        · exact .inr h

/-- A write to a cell below `n` keeps the canonical form. -/
theorem Memory.writeCell_wf {i : Nat} (hw : m.wf d n) (hi : i < n) (b : Byte) : (m.writeCell d i b).wf d n := by
  refine ⟨?_, fun x hx => ?_⟩
  · induction m with
    | nil => by_cases hb : some b = d <;> simp [Memory.writeCell, hb]
    | cons c rest ih =>
      obtain ⟨hp, hc⟩ := hw
      have hp' := List.pairwise_cons.1 hp
      simp only [Memory.writeCell]
      split_ifs with h1 h2 h3 h4
      · exact hp
      · refine List.pairwise_cons.2 ⟨fun x hx => ?_, hp⟩
        rcases List.mem_cons.1 hx with rfl | hx
        · exact h1
        · exact lt_trans h1 (hp'.1 x hx)
      · exact hp'.2
      · exact List.pairwise_cons.2 ⟨fun x hx => by have := hp'.1 x hx; simpa [h3] using this, hp'.2⟩
      · refine List.pairwise_cons.2 ⟨fun x hx => ?_, ih ⟨hp'.2, fun y hy => hc y (by simp [hy])⟩⟩
        rcases Memory.mem_writeCell hx with hx | ⟨rfl, -⟩
        · exact hp'.1 x hx
        · show c.1 < i
          omega
  · rcases Memory.mem_writeCell hx with hx | ⟨rfl, hb⟩
    · exact hw.2 x hx
    · exact ⟨hi, hb⟩

/-! ## Runs of cells -/

@[simp] theorem Memory.writeCells_nil (i : Nat) : m.writeCells d i [] = m := rfl

@[simp] theorem Memory.writeCells_cons (i : Nat) (b : Byte) (bs : List Byte) :
    m.writeCells d i (b :: bs) = (m.writeCell d i b).writeCells d (i + 1) bs := rfl

theorem Memory.writeCells_wf {i : Nat} {bs : List Byte} (hw : m.wf d n) (hi : i + bs.length ≤ n) :
    (m.writeCells d i bs).wf d n := by
  induction bs generalizing m i with
  | nil => exact hw
  | cons b rest ih =>
    simp only [List.length_cons] at hi
    exact ih (Memory.writeCell_wf hw (by omega) b) (by omega)

/-- Writing a run leaves every cell outside it alone. -/
theorem Memory.readCell_writeCells_outside {i j : Nat} {bs : List Byte} (h : j < i ∨ i + bs.length ≤ j) :
    (m.writeCells d i bs).readCell d j = m.readCell d j := by
  induction bs generalizing m i with
  | nil => rfl
  | cons b rest ih =>
    simp only [List.length_cons] at h
    rw [Memory.writeCells_cons, ih (by omega), Memory.readCell_writeCell_of_ne b (by omega)]

/-- Cell `i + k` of a run that was written at `i` holds its byte `k`. -/
theorem Memory.readCell_writeCells_inside {i k : Nat} {bs : List Byte} (hw : m.wf d n)
    (hn : i + bs.length ≤ n) (hk : k < bs.length) :
    (m.writeCells d i bs).readCell d (i + k) = some bs[k] := by
  induction bs generalizing m i k with
  | nil => simp at hk
  | cons b rest ih =>
    simp only [List.length_cons] at hn hk
    have hw' := Memory.writeCell_wf hw (show i < n by omega) b
    cases k with
    | zero =>
      rw [Memory.writeCells_cons, Memory.readCell_writeCells_outside (by omega)]
      simpa using Memory.readCell_writeCell_self hw i b
    | succ k =>
      have := ih hw' (i := i + 1) (k := k) (by omega) (by omega)
      rw [Memory.writeCells_cons, show i + (k + 1) = i + 1 + k by omega, this]
      simp

/-- Reading a run gives `bs` exactly when each of its cells holds that byte. -/
theorem Memory.readCells_eq_some_iff {i k : Nat} {bs : List Byte} :
    m.readCells d i k = some bs ↔
      bs.length = k ∧ ∀ (j : Nat) (h : j < bs.length), m.readCell d (i + j) = some bs[j] := by
  induction k generalizing i bs with
  | zero =>
    simp only [Memory.readCells, Option.some.injEq]
    constructor
    · rintro rfl; simp
    · rintro ⟨h, -⟩; exact (List.eq_nil_of_length_eq_zero h).symm
  | succ k ih =>
    simp only [Memory.readCells]
    constructor
    · intro h
      split at h
      · rename_i b bs' hb hbs
        obtain ⟨hl, hr⟩ := ih.1 hbs
        obtain rfl : b :: bs' = bs := by simpa using h
        refine ⟨by simp [hl], fun j hj => ?_⟩
        cases j with
        | zero => simpa using hb
        | succ j =>
          have := hr j (by simpa using hj)
          rw [show i + (j + 1) = i + 1 + j by omega, this]
          simp
      · simp at h
    · rintro ⟨hl, hr⟩
      cases bs with
      | nil => simp at hl
      | cons b bs' =>
        have hb : m.readCell d i = some b := hr 0 (Nat.succ_pos _)
        have hbs : m.readCells d (i + 1) k = some bs' := by
          refine ih.2 ⟨by simpa using hl, fun j hj => ?_⟩
          have := hr (j + 1) (by simpa using hj)
          rw [show i + 1 + j = i + (j + 1) by omega, this]
          simp
        rw [hb, hbs]

/-- Reading back a run that was written. -/
theorem Memory.readCells_writeCells {i : Nat} {bs : List Byte} (hw : m.wf d n) (hn : i + bs.length ≤ n) :
    (m.writeCells d i bs).readCells d i bs.length = some bs :=
  Memory.readCells_eq_some_iff.2 ⟨rfl, fun _ hj => Memory.readCell_writeCells_inside hw hn hj⟩

/-- Under ZERO every cell holds a value. -/
theorem Memory.readCell_zero (m : Memory) (i : Nat) : ∃ b, m.readCell (unlistedCell .zero) i = some b := by
  induction m with
  | nil => exact ⟨0, rfl⟩
  | cons c rest ih =>
    rw [Memory.readCell_cons]
    split_ifs
    · exact ⟨_, rfl⟩
    · exact ih

/-- Under ZERO every run of cells holds values. -/
theorem Memory.readCells_zero (m : Memory) (i k : Nat) :
    ∃ bs, m.readCells (unlistedCell .zero) i k = some bs := by
  induction k generalizing i with
  | zero => exact ⟨[], rfl⟩
  | succ k ih =>
    obtain ⟨b, hb⟩ := Memory.readCell_zero m i
    obtain ⟨bs, hbs⟩ := ih (i + 1)
    exact ⟨b :: bs, by simp only [Memory.readCells, hb, hbs]⟩

/-- Equal contents are equal lists. -/
theorem Memory.ext_of_wf {m₁ m₂ : Memory} {n₁ n₂ : Nat} (h₁ : m₁.wf d n₁) (h₂ : m₂.wf d n₂)
    (h : ∀ i, m₁.readCell d i = m₂.readCell d i) : m₁ = m₂ := by
  have head_le : ∀ {c : Host.Cell} {r m' : Memory} {k k' : Nat}, Memory.wf d k (c :: r) → Memory.wf d k' m' →
      (∀ i, Memory.readCell d (c :: r) i = m'.readCell d i) → ∃ x ∈ m', x.1 ≤ c.1 := by
    intro c r m' k k' hc hm hr
    by_contra hcon
    push Not at hcon
    have h1 := hr c.1
    rw [Memory.readCell_cons, if_pos rfl, Memory.readCell_of_not_mem fun x hx => by have := hcon x hx; omega] at h1
    exact (hc.2 c (by simp)).2 h1
  induction m₁ generalizing m₂ with
  | nil =>
    cases m₂ with
    | nil => rfl
    | cons c r => obtain ⟨x, hx, -⟩ := head_le h₂ h₁ fun i => (h i).symm; simp at hx
  | cons c₁ r₁ ih =>
    cases m₂ with
    | nil => obtain ⟨x, hx, -⟩ := head_le h₁ h₂ h; simp at hx
    | cons c₂ r₂ =>
      have p₁ := List.pairwise_cons.1 h₁.1
      have p₂ := List.pairwise_cons.1 h₂.1
      have hle : c₂.1 ≤ c₁.1 := by
        obtain ⟨x, hx, hxc⟩ := head_le h₁ h₂ h
        rcases List.mem_cons.1 hx with rfl | hx
        · exact hxc
        · have := p₂.1 x hx; omega
      have hge : c₁.1 ≤ c₂.1 := by
        obtain ⟨x, hx, hxc⟩ := head_le h₂ h₁ fun i => (h i).symm
        rcases List.mem_cons.1 hx with rfl | hx
        · exact hxc
        · have := p₁.1 x hx; omega
      have hk : c₁.1 = c₂.1 := by omega
      have hv : c₁.2 = c₂.2 := by
        have := h c₁.1
        rw [Memory.readCell_cons, Memory.readCell_cons, if_pos rfl, if_pos hk.symm] at this
        simpa using this
      have hr : ∀ i, Memory.readCell d r₁ i = Memory.readCell d r₂ i := by
        intro i
        by_cases hi : c₁.1 = i
        · rw [Memory.readCell_of_not_mem fun x hx => by have := p₁.1 x hx; omega,
            Memory.readCell_of_not_mem fun x hx => by have := p₂.1 x hx; omega]
        · have := h i
          rwa [Memory.readCell_cons, Memory.readCell_cons, if_neg hi, if_neg (hk ▸ hi)] at this
      rw [ih ⟨p₁.2, fun x hx => h₁.2 x (by simp [hx])⟩ ⟨p₂.2, fun x hx => h₂.2 x (by simp [hx])⟩ hr,
        Prod.ext hk hv]

end Sys2Proof.Machine
end

