-- ==== Sys2Proof/Laws/State.lean ====
section
/-! SUPPORT. One lemma per field per update of the state, and per accessor an update leaves alone, so that no
later proof unfolds a record update. -/

namespace Sys2Proof.Machine

variable (s : State)

/-! ## setStatus -/

@[simp] theorem setStatus_cfg (c : BitVec 4) : (s.setStatus c).cfg = s.cfg := rfl
@[simp] theorem setStatus_status (c : BitVec 4) : (s.setStatus c).status = c := rfl
@[simp] theorem setStatus_crcAcc (c : BitVec 4) : (s.setStatus c).crcAcc = s.crcAcc := rfl
@[simp] theorem setStatus_reqUnit (c : BitVec 4) : (s.setStatus c).reqUnit = s.reqUnit := rfl
@[simp] theorem setStatus_reqFc (c : BitVec 4) : (s.setStatus c).reqFc = s.reqFc := rfl
@[simp] theorem setStatus_reqAddr (c : BitVec 4) : (s.setStatus c).reqAddr = s.reqAddr := rfl
@[simp] theorem setStatus_reqQty (c : BitVec 4) : (s.setStatus c).reqQty = s.reqQty := rfl
@[simp] theorem setStatus_inLen (c : BitVec 4) : (s.setStatus c).inLen = s.inLen := rfl
@[simp] theorem setStatus_outLen (c : BitVec 4) : (s.setStatus c).outLen = s.outLen := rfl
@[simp] theorem setStatus_respUnit (c : BitVec 4) : (s.setStatus c).respUnit = s.respUnit := rfl
@[simp] theorem setStatus_respFc (c : BitVec 4) : (s.setStatus c).respFc = s.respFc := rfl
@[simp] theorem setStatus_respReg (c : BitVec 4) : (s.setStatus c).respReg = s.respReg := rfl
@[simp] theorem setStatus_respDevid (c : BitVec 4) : (s.setStatus c).respDevid = s.respDevid := rfl
@[simp] theorem setStatus_errInfo (c : BitVec 4) : (s.setStatus c).errInfo = s.errInfo := rfl
@[simp] theorem setStatus_inBuf (c : BitVec 4) : (s.setStatus c).inBuf = s.inBuf := rfl
@[simp] theorem setStatus_outBuf (c : BitVec 4) : (s.setStatus c).outBuf = s.outBuf := rfl
@[simp] theorem setStatus_events (c : BitVec 4) : (s.setStatus c).events = s.events := rfl
@[simp] theorem setStatus_replies (c : BitVec 4) : (s.setStatus c).replies = s.replies := rfl
@[simp] theorem setStatus_unlisted (c : BitVec 4) : (s.setStatus c).unlisted = s.unlisted := rfl
@[simp] theorem setStatus_frameLen (c : BitVec 4) : (s.setStatus c).frameLen = s.frameLen := rfl
@[simp] theorem setStatus_inCell (c : BitVec 4) (k : Nat) : (s.setStatus c).inCell k = s.inCell k := rfl
@[simp] theorem setStatus_outCell (c : BitVec 4) (k : Nat) : (s.setStatus c).outCell k = s.outCell k := rfl

/-! ## setCrcAcc -/

@[simp] theorem setCrcAcc_cfg (v : U16) : (s.setCrcAcc v).cfg = s.cfg := rfl
@[simp] theorem setCrcAcc_status (v : U16) : (s.setCrcAcc v).status = s.status := rfl
@[simp] theorem setCrcAcc_crcAcc (v : U16) : (s.setCrcAcc v).crcAcc = v := rfl
@[simp] theorem setCrcAcc_reqUnit (v : U16) : (s.setCrcAcc v).reqUnit = s.reqUnit := rfl
@[simp] theorem setCrcAcc_reqFc (v : U16) : (s.setCrcAcc v).reqFc = s.reqFc := rfl
@[simp] theorem setCrcAcc_reqAddr (v : U16) : (s.setCrcAcc v).reqAddr = s.reqAddr := rfl
@[simp] theorem setCrcAcc_reqQty (v : U16) : (s.setCrcAcc v).reqQty = s.reqQty := rfl
@[simp] theorem setCrcAcc_inLen (v : U16) : (s.setCrcAcc v).inLen = s.inLen := rfl
@[simp] theorem setCrcAcc_outLen (v : U16) : (s.setCrcAcc v).outLen = s.outLen := rfl
@[simp] theorem setCrcAcc_respUnit (v : U16) : (s.setCrcAcc v).respUnit = s.respUnit := rfl
@[simp] theorem setCrcAcc_respFc (v : U16) : (s.setCrcAcc v).respFc = s.respFc := rfl
@[simp] theorem setCrcAcc_respReg (v : U16) : (s.setCrcAcc v).respReg = s.respReg := rfl
@[simp] theorem setCrcAcc_respDevid (v : U16) : (s.setCrcAcc v).respDevid = s.respDevid := rfl
@[simp] theorem setCrcAcc_errInfo (v : U16) : (s.setCrcAcc v).errInfo = s.errInfo := rfl
@[simp] theorem setCrcAcc_inBuf (v : U16) : (s.setCrcAcc v).inBuf = s.inBuf := rfl
@[simp] theorem setCrcAcc_outBuf (v : U16) : (s.setCrcAcc v).outBuf = s.outBuf := rfl
@[simp] theorem setCrcAcc_events (v : U16) : (s.setCrcAcc v).events = s.events := rfl
@[simp] theorem setCrcAcc_replies (v : U16) : (s.setCrcAcc v).replies = s.replies := rfl
@[simp] theorem setCrcAcc_unlisted (v : U16) : (s.setCrcAcc v).unlisted = s.unlisted := rfl
@[simp] theorem setCrcAcc_frameLen (v : U16) : (s.setCrcAcc v).frameLen = s.frameLen := rfl
@[simp] theorem setCrcAcc_inCell (v : U16) (k : Nat) : (s.setCrcAcc v).inCell k = s.inCell k := rfl
@[simp] theorem setCrcAcc_outCell (v : U16) (k : Nat) : (s.setCrcAcc v).outCell k = s.outCell k := rfl

/-! ## setReqUnit -/

@[simp] theorem setReqUnit_cfg (v : Byte) : (s.setReqUnit v).cfg = s.cfg := rfl
@[simp] theorem setReqUnit_status (v : Byte) : (s.setReqUnit v).status = s.status := rfl
@[simp] theorem setReqUnit_crcAcc (v : Byte) : (s.setReqUnit v).crcAcc = s.crcAcc := rfl
@[simp] theorem setReqUnit_reqUnit (v : Byte) : (s.setReqUnit v).reqUnit = v := rfl
@[simp] theorem setReqUnit_reqFc (v : Byte) : (s.setReqUnit v).reqFc = s.reqFc := rfl
@[simp] theorem setReqUnit_reqAddr (v : Byte) : (s.setReqUnit v).reqAddr = s.reqAddr := rfl
@[simp] theorem setReqUnit_reqQty (v : Byte) : (s.setReqUnit v).reqQty = s.reqQty := rfl
@[simp] theorem setReqUnit_inLen (v : Byte) : (s.setReqUnit v).inLen = s.inLen := rfl
@[simp] theorem setReqUnit_outLen (v : Byte) : (s.setReqUnit v).outLen = s.outLen := rfl
@[simp] theorem setReqUnit_respUnit (v : Byte) : (s.setReqUnit v).respUnit = s.respUnit := rfl
@[simp] theorem setReqUnit_respFc (v : Byte) : (s.setReqUnit v).respFc = s.respFc := rfl
@[simp] theorem setReqUnit_respReg (v : Byte) : (s.setReqUnit v).respReg = s.respReg := rfl
@[simp] theorem setReqUnit_respDevid (v : Byte) : (s.setReqUnit v).respDevid = s.respDevid := rfl
@[simp] theorem setReqUnit_errInfo (v : Byte) : (s.setReqUnit v).errInfo = s.errInfo := rfl
@[simp] theorem setReqUnit_inBuf (v : Byte) : (s.setReqUnit v).inBuf = s.inBuf := rfl
@[simp] theorem setReqUnit_outBuf (v : Byte) : (s.setReqUnit v).outBuf = s.outBuf := rfl
@[simp] theorem setReqUnit_events (v : Byte) : (s.setReqUnit v).events = s.events := rfl
@[simp] theorem setReqUnit_replies (v : Byte) : (s.setReqUnit v).replies = s.replies := rfl
@[simp] theorem setReqUnit_unlisted (v : Byte) : (s.setReqUnit v).unlisted = s.unlisted := rfl
@[simp] theorem setReqUnit_frameLen (v : Byte) : (s.setReqUnit v).frameLen = s.frameLen := rfl
@[simp] theorem setReqUnit_inCell (v : Byte) (k : Nat) : (s.setReqUnit v).inCell k = s.inCell k := rfl
@[simp] theorem setReqUnit_outCell (v : Byte) (k : Nat) : (s.setReqUnit v).outCell k = s.outCell k := rfl

/-! ## setReqFc -/

@[simp] theorem setReqFc_cfg (v : Byte) : (s.setReqFc v).cfg = s.cfg := rfl
@[simp] theorem setReqFc_status (v : Byte) : (s.setReqFc v).status = s.status := rfl
@[simp] theorem setReqFc_crcAcc (v : Byte) : (s.setReqFc v).crcAcc = s.crcAcc := rfl
@[simp] theorem setReqFc_reqUnit (v : Byte) : (s.setReqFc v).reqUnit = s.reqUnit := rfl
@[simp] theorem setReqFc_reqFc (v : Byte) : (s.setReqFc v).reqFc = v := rfl
@[simp] theorem setReqFc_reqAddr (v : Byte) : (s.setReqFc v).reqAddr = s.reqAddr := rfl
@[simp] theorem setReqFc_reqQty (v : Byte) : (s.setReqFc v).reqQty = s.reqQty := rfl
@[simp] theorem setReqFc_inLen (v : Byte) : (s.setReqFc v).inLen = s.inLen := rfl
@[simp] theorem setReqFc_outLen (v : Byte) : (s.setReqFc v).outLen = s.outLen := rfl
@[simp] theorem setReqFc_respUnit (v : Byte) : (s.setReqFc v).respUnit = s.respUnit := rfl
@[simp] theorem setReqFc_respFc (v : Byte) : (s.setReqFc v).respFc = s.respFc := rfl
@[simp] theorem setReqFc_respReg (v : Byte) : (s.setReqFc v).respReg = s.respReg := rfl
@[simp] theorem setReqFc_respDevid (v : Byte) : (s.setReqFc v).respDevid = s.respDevid := rfl
@[simp] theorem setReqFc_errInfo (v : Byte) : (s.setReqFc v).errInfo = s.errInfo := rfl
@[simp] theorem setReqFc_inBuf (v : Byte) : (s.setReqFc v).inBuf = s.inBuf := rfl
@[simp] theorem setReqFc_outBuf (v : Byte) : (s.setReqFc v).outBuf = s.outBuf := rfl
@[simp] theorem setReqFc_events (v : Byte) : (s.setReqFc v).events = s.events := rfl
@[simp] theorem setReqFc_replies (v : Byte) : (s.setReqFc v).replies = s.replies := rfl
@[simp] theorem setReqFc_unlisted (v : Byte) : (s.setReqFc v).unlisted = s.unlisted := rfl
@[simp] theorem setReqFc_frameLen (v : Byte) : (s.setReqFc v).frameLen = s.frameLen := rfl
@[simp] theorem setReqFc_inCell (v : Byte) (k : Nat) : (s.setReqFc v).inCell k = s.inCell k := rfl
@[simp] theorem setReqFc_outCell (v : Byte) (k : Nat) : (s.setReqFc v).outCell k = s.outCell k := rfl

/-! ## setReqAddr -/

@[simp] theorem setReqAddr_cfg (v : U16) : (s.setReqAddr v).cfg = s.cfg := rfl
@[simp] theorem setReqAddr_status (v : U16) : (s.setReqAddr v).status = s.status := rfl
@[simp] theorem setReqAddr_crcAcc (v : U16) : (s.setReqAddr v).crcAcc = s.crcAcc := rfl
@[simp] theorem setReqAddr_reqUnit (v : U16) : (s.setReqAddr v).reqUnit = s.reqUnit := rfl
@[simp] theorem setReqAddr_reqFc (v : U16) : (s.setReqAddr v).reqFc = s.reqFc := rfl
@[simp] theorem setReqAddr_reqAddr (v : U16) : (s.setReqAddr v).reqAddr = v := rfl
@[simp] theorem setReqAddr_reqQty (v : U16) : (s.setReqAddr v).reqQty = s.reqQty := rfl
@[simp] theorem setReqAddr_inLen (v : U16) : (s.setReqAddr v).inLen = s.inLen := rfl
@[simp] theorem setReqAddr_outLen (v : U16) : (s.setReqAddr v).outLen = s.outLen := rfl
@[simp] theorem setReqAddr_respUnit (v : U16) : (s.setReqAddr v).respUnit = s.respUnit := rfl
@[simp] theorem setReqAddr_respFc (v : U16) : (s.setReqAddr v).respFc = s.respFc := rfl
@[simp] theorem setReqAddr_respReg (v : U16) : (s.setReqAddr v).respReg = s.respReg := rfl
@[simp] theorem setReqAddr_respDevid (v : U16) : (s.setReqAddr v).respDevid = s.respDevid := rfl
@[simp] theorem setReqAddr_errInfo (v : U16) : (s.setReqAddr v).errInfo = s.errInfo := rfl
@[simp] theorem setReqAddr_inBuf (v : U16) : (s.setReqAddr v).inBuf = s.inBuf := rfl
@[simp] theorem setReqAddr_outBuf (v : U16) : (s.setReqAddr v).outBuf = s.outBuf := rfl
@[simp] theorem setReqAddr_events (v : U16) : (s.setReqAddr v).events = s.events := rfl
@[simp] theorem setReqAddr_replies (v : U16) : (s.setReqAddr v).replies = s.replies := rfl
@[simp] theorem setReqAddr_unlisted (v : U16) : (s.setReqAddr v).unlisted = s.unlisted := rfl
@[simp] theorem setReqAddr_frameLen (v : U16) : (s.setReqAddr v).frameLen = s.frameLen := rfl
@[simp] theorem setReqAddr_inCell (v : U16) (k : Nat) : (s.setReqAddr v).inCell k = s.inCell k := rfl
@[simp] theorem setReqAddr_outCell (v : U16) (k : Nat) : (s.setReqAddr v).outCell k = s.outCell k := rfl

/-! ## setReqQty -/

@[simp] theorem setReqQty_cfg (v : U16) : (s.setReqQty v).cfg = s.cfg := rfl
@[simp] theorem setReqQty_status (v : U16) : (s.setReqQty v).status = s.status := rfl
@[simp] theorem setReqQty_crcAcc (v : U16) : (s.setReqQty v).crcAcc = s.crcAcc := rfl
@[simp] theorem setReqQty_reqUnit (v : U16) : (s.setReqQty v).reqUnit = s.reqUnit := rfl
@[simp] theorem setReqQty_reqFc (v : U16) : (s.setReqQty v).reqFc = s.reqFc := rfl
@[simp] theorem setReqQty_reqAddr (v : U16) : (s.setReqQty v).reqAddr = s.reqAddr := rfl
@[simp] theorem setReqQty_reqQty (v : U16) : (s.setReqQty v).reqQty = v := rfl
@[simp] theorem setReqQty_inLen (v : U16) : (s.setReqQty v).inLen = s.inLen := rfl
@[simp] theorem setReqQty_outLen (v : U16) : (s.setReqQty v).outLen = s.outLen := rfl
@[simp] theorem setReqQty_respUnit (v : U16) : (s.setReqQty v).respUnit = s.respUnit := rfl
@[simp] theorem setReqQty_respFc (v : U16) : (s.setReqQty v).respFc = s.respFc := rfl
@[simp] theorem setReqQty_respReg (v : U16) : (s.setReqQty v).respReg = s.respReg := rfl
@[simp] theorem setReqQty_respDevid (v : U16) : (s.setReqQty v).respDevid = s.respDevid := rfl
@[simp] theorem setReqQty_errInfo (v : U16) : (s.setReqQty v).errInfo = s.errInfo := rfl
@[simp] theorem setReqQty_inBuf (v : U16) : (s.setReqQty v).inBuf = s.inBuf := rfl
@[simp] theorem setReqQty_outBuf (v : U16) : (s.setReqQty v).outBuf = s.outBuf := rfl
@[simp] theorem setReqQty_events (v : U16) : (s.setReqQty v).events = s.events := rfl
@[simp] theorem setReqQty_replies (v : U16) : (s.setReqQty v).replies = s.replies := rfl
@[simp] theorem setReqQty_unlisted (v : U16) : (s.setReqQty v).unlisted = s.unlisted := rfl
@[simp] theorem setReqQty_frameLen (v : U16) : (s.setReqQty v).frameLen = s.frameLen := rfl
@[simp] theorem setReqQty_inCell (v : U16) (k : Nat) : (s.setReqQty v).inCell k = s.inCell k := rfl
@[simp] theorem setReqQty_outCell (v : U16) (k : Nat) : (s.setReqQty v).outCell k = s.outCell k := rfl

/-! ## setInLen -/

@[simp] theorem setInLen_cfg (v : BitVec 9) : (s.setInLen v).cfg = s.cfg := rfl
@[simp] theorem setInLen_status (v : BitVec 9) : (s.setInLen v).status = s.status := rfl
@[simp] theorem setInLen_crcAcc (v : BitVec 9) : (s.setInLen v).crcAcc = s.crcAcc := rfl
@[simp] theorem setInLen_reqUnit (v : BitVec 9) : (s.setInLen v).reqUnit = s.reqUnit := rfl
@[simp] theorem setInLen_reqFc (v : BitVec 9) : (s.setInLen v).reqFc = s.reqFc := rfl
@[simp] theorem setInLen_reqAddr (v : BitVec 9) : (s.setInLen v).reqAddr = s.reqAddr := rfl
@[simp] theorem setInLen_reqQty (v : BitVec 9) : (s.setInLen v).reqQty = s.reqQty := rfl
@[simp] theorem setInLen_inLen (v : BitVec 9) : (s.setInLen v).inLen = v := rfl
@[simp] theorem setInLen_outLen (v : BitVec 9) : (s.setInLen v).outLen = s.outLen := rfl
@[simp] theorem setInLen_respUnit (v : BitVec 9) : (s.setInLen v).respUnit = s.respUnit := rfl
@[simp] theorem setInLen_respFc (v : BitVec 9) : (s.setInLen v).respFc = s.respFc := rfl
@[simp] theorem setInLen_respReg (v : BitVec 9) : (s.setInLen v).respReg = s.respReg := rfl
@[simp] theorem setInLen_respDevid (v : BitVec 9) : (s.setInLen v).respDevid = s.respDevid := rfl
@[simp] theorem setInLen_errInfo (v : BitVec 9) : (s.setInLen v).errInfo = s.errInfo := rfl
@[simp] theorem setInLen_inBuf (v : BitVec 9) : (s.setInLen v).inBuf = s.inBuf := rfl
@[simp] theorem setInLen_outBuf (v : BitVec 9) : (s.setInLen v).outBuf = s.outBuf := rfl
@[simp] theorem setInLen_events (v : BitVec 9) : (s.setInLen v).events = s.events := rfl
@[simp] theorem setInLen_replies (v : BitVec 9) : (s.setInLen v).replies = s.replies := rfl
@[simp] theorem setInLen_unlisted (v : BitVec 9) : (s.setInLen v).unlisted = s.unlisted := rfl
@[simp] theorem setInLen_inCell (v : BitVec 9) (k : Nat) : (s.setInLen v).inCell k = s.inCell k := rfl
@[simp] theorem setInLen_outCell (v : BitVec 9) (k : Nat) : (s.setInLen v).outCell k = s.outCell k := rfl

/-! ## setInCell -/

@[simp] theorem setInCell_cfg (i : Nat) (b : Byte) : (s.setInCell i b).cfg = s.cfg := rfl
@[simp] theorem setInCell_status (i : Nat) (b : Byte) : (s.setInCell i b).status = s.status := rfl
@[simp] theorem setInCell_crcAcc (i : Nat) (b : Byte) : (s.setInCell i b).crcAcc = s.crcAcc := rfl
@[simp] theorem setInCell_reqUnit (i : Nat) (b : Byte) : (s.setInCell i b).reqUnit = s.reqUnit := rfl
@[simp] theorem setInCell_reqFc (i : Nat) (b : Byte) : (s.setInCell i b).reqFc = s.reqFc := rfl
@[simp] theorem setInCell_reqAddr (i : Nat) (b : Byte) : (s.setInCell i b).reqAddr = s.reqAddr := rfl
@[simp] theorem setInCell_reqQty (i : Nat) (b : Byte) : (s.setInCell i b).reqQty = s.reqQty := rfl
@[simp] theorem setInCell_inLen (i : Nat) (b : Byte) : (s.setInCell i b).inLen = s.inLen := rfl
@[simp] theorem setInCell_outLen (i : Nat) (b : Byte) : (s.setInCell i b).outLen = s.outLen := rfl
@[simp] theorem setInCell_respUnit (i : Nat) (b : Byte) : (s.setInCell i b).respUnit = s.respUnit := rfl
@[simp] theorem setInCell_respFc (i : Nat) (b : Byte) : (s.setInCell i b).respFc = s.respFc := rfl
@[simp] theorem setInCell_respReg (i : Nat) (b : Byte) : (s.setInCell i b).respReg = s.respReg := rfl
@[simp] theorem setInCell_respDevid (i : Nat) (b : Byte) : (s.setInCell i b).respDevid = s.respDevid := rfl
@[simp] theorem setInCell_errInfo (i : Nat) (b : Byte) : (s.setInCell i b).errInfo = s.errInfo := rfl
@[simp] theorem setInCell_inBuf (i : Nat) (b : Byte) : (s.setInCell i b).inBuf = s.inBuf.writeCell s.unlisted i b := rfl
@[simp] theorem setInCell_outBuf (i : Nat) (b : Byte) : (s.setInCell i b).outBuf = s.outBuf := rfl
@[simp] theorem setInCell_events (i : Nat) (b : Byte) : (s.setInCell i b).events = s.events := rfl
@[simp] theorem setInCell_replies (i : Nat) (b : Byte) : (s.setInCell i b).replies = s.replies := rfl
@[simp] theorem setInCell_unlisted (i : Nat) (b : Byte) : (s.setInCell i b).unlisted = s.unlisted := rfl
@[simp] theorem setInCell_frameLen (i : Nat) (b : Byte) : (s.setInCell i b).frameLen = s.frameLen := rfl
@[simp] theorem setInCell_outCell (i : Nat) (b : Byte) (k : Nat) : (s.setInCell i b).outCell k = s.outCell k := rfl

/-! ## setOutLen -/

@[simp] theorem setOutLen_cfg (v : BitVec 9) : (s.setOutLen v).cfg = s.cfg := rfl
@[simp] theorem setOutLen_status (v : BitVec 9) : (s.setOutLen v).status = s.status := rfl
@[simp] theorem setOutLen_crcAcc (v : BitVec 9) : (s.setOutLen v).crcAcc = s.crcAcc := rfl
@[simp] theorem setOutLen_reqUnit (v : BitVec 9) : (s.setOutLen v).reqUnit = s.reqUnit := rfl
@[simp] theorem setOutLen_reqFc (v : BitVec 9) : (s.setOutLen v).reqFc = s.reqFc := rfl
@[simp] theorem setOutLen_reqAddr (v : BitVec 9) : (s.setOutLen v).reqAddr = s.reqAddr := rfl
@[simp] theorem setOutLen_reqQty (v : BitVec 9) : (s.setOutLen v).reqQty = s.reqQty := rfl
@[simp] theorem setOutLen_inLen (v : BitVec 9) : (s.setOutLen v).inLen = s.inLen := rfl
@[simp] theorem setOutLen_outLen (v : BitVec 9) : (s.setOutLen v).outLen = v := rfl
@[simp] theorem setOutLen_respUnit (v : BitVec 9) : (s.setOutLen v).respUnit = s.respUnit := rfl
@[simp] theorem setOutLen_respFc (v : BitVec 9) : (s.setOutLen v).respFc = s.respFc := rfl
@[simp] theorem setOutLen_respReg (v : BitVec 9) : (s.setOutLen v).respReg = s.respReg := rfl
@[simp] theorem setOutLen_respDevid (v : BitVec 9) : (s.setOutLen v).respDevid = s.respDevid := rfl
@[simp] theorem setOutLen_errInfo (v : BitVec 9) : (s.setOutLen v).errInfo = s.errInfo := rfl
@[simp] theorem setOutLen_inBuf (v : BitVec 9) : (s.setOutLen v).inBuf = s.inBuf := rfl
@[simp] theorem setOutLen_outBuf (v : BitVec 9) : (s.setOutLen v).outBuf = s.outBuf := rfl
@[simp] theorem setOutLen_events (v : BitVec 9) : (s.setOutLen v).events = s.events := rfl
@[simp] theorem setOutLen_replies (v : BitVec 9) : (s.setOutLen v).replies = s.replies := rfl
@[simp] theorem setOutLen_unlisted (v : BitVec 9) : (s.setOutLen v).unlisted = s.unlisted := rfl
@[simp] theorem setOutLen_frameLen (v : BitVec 9) : (s.setOutLen v).frameLen = s.frameLen := rfl
@[simp] theorem setOutLen_inCell (v : BitVec 9) (k : Nat) : (s.setOutLen v).inCell k = s.inCell k := rfl
@[simp] theorem setOutLen_outCell (v : BitVec 9) (k : Nat) : (s.setOutLen v).outCell k = s.outCell k := rfl

/-! ## setOutFrame -/

@[simp] theorem setOutFrame_cfg (bs : List Byte) : (s.setOutFrame bs).cfg = s.cfg := rfl
@[simp] theorem setOutFrame_status (bs : List Byte) : (s.setOutFrame bs).status = s.status := rfl
@[simp] theorem setOutFrame_crcAcc (bs : List Byte) : (s.setOutFrame bs).crcAcc = s.crcAcc := rfl
@[simp] theorem setOutFrame_reqUnit (bs : List Byte) : (s.setOutFrame bs).reqUnit = s.reqUnit := rfl
@[simp] theorem setOutFrame_reqFc (bs : List Byte) : (s.setOutFrame bs).reqFc = s.reqFc := rfl
@[simp] theorem setOutFrame_reqAddr (bs : List Byte) : (s.setOutFrame bs).reqAddr = s.reqAddr := rfl
@[simp] theorem setOutFrame_reqQty (bs : List Byte) : (s.setOutFrame bs).reqQty = s.reqQty := rfl
@[simp] theorem setOutFrame_inLen (bs : List Byte) : (s.setOutFrame bs).inLen = s.inLen := rfl
@[simp] theorem setOutFrame_outLen (bs : List Byte) : (s.setOutFrame bs).outLen = s.outLen := rfl
@[simp] theorem setOutFrame_respUnit (bs : List Byte) : (s.setOutFrame bs).respUnit = s.respUnit := rfl
@[simp] theorem setOutFrame_respFc (bs : List Byte) : (s.setOutFrame bs).respFc = s.respFc := rfl
@[simp] theorem setOutFrame_respReg (bs : List Byte) : (s.setOutFrame bs).respReg = s.respReg := rfl
@[simp] theorem setOutFrame_respDevid (bs : List Byte) : (s.setOutFrame bs).respDevid = s.respDevid := rfl
@[simp] theorem setOutFrame_errInfo (bs : List Byte) : (s.setOutFrame bs).errInfo = s.errInfo := rfl
@[simp] theorem setOutFrame_inBuf (bs : List Byte) : (s.setOutFrame bs).inBuf = s.inBuf := rfl
@[simp] theorem setOutFrame_outBuf (bs : List Byte) : (s.setOutFrame bs).outBuf = s.outBuf.writeCells s.unlisted 0 bs := rfl
@[simp] theorem setOutFrame_events (bs : List Byte) : (s.setOutFrame bs).events = s.events := rfl
@[simp] theorem setOutFrame_replies (bs : List Byte) : (s.setOutFrame bs).replies = s.replies := rfl
@[simp] theorem setOutFrame_unlisted (bs : List Byte) : (s.setOutFrame bs).unlisted = s.unlisted := rfl
@[simp] theorem setOutFrame_frameLen (bs : List Byte) : (s.setOutFrame bs).frameLen = s.frameLen := rfl
@[simp] theorem setOutFrame_inCell (bs : List Byte) (k : Nat) : (s.setOutFrame bs).inCell k = s.inCell k := rfl

/-! ## setParseResult -/

@[simp] theorem setParseResult_cfg (u f : Byte) (r : U16) (d : Byte) (e : ErrInfo) : (s.setParseResult u f r d e).cfg = s.cfg := rfl
@[simp] theorem setParseResult_status (u f : Byte) (r : U16) (d : Byte) (e : ErrInfo) : (s.setParseResult u f r d e).status = s.status := rfl
@[simp] theorem setParseResult_crcAcc (u f : Byte) (r : U16) (d : Byte) (e : ErrInfo) : (s.setParseResult u f r d e).crcAcc = s.crcAcc := rfl
@[simp] theorem setParseResult_reqUnit (u f : Byte) (r : U16) (d : Byte) (e : ErrInfo) : (s.setParseResult u f r d e).reqUnit = s.reqUnit := rfl
@[simp] theorem setParseResult_reqFc (u f : Byte) (r : U16) (d : Byte) (e : ErrInfo) : (s.setParseResult u f r d e).reqFc = s.reqFc := rfl
@[simp] theorem setParseResult_reqAddr (u f : Byte) (r : U16) (d : Byte) (e : ErrInfo) : (s.setParseResult u f r d e).reqAddr = s.reqAddr := rfl
@[simp] theorem setParseResult_reqQty (u f : Byte) (r : U16) (d : Byte) (e : ErrInfo) : (s.setParseResult u f r d e).reqQty = s.reqQty := rfl
@[simp] theorem setParseResult_inLen (u f : Byte) (r : U16) (d : Byte) (e : ErrInfo) : (s.setParseResult u f r d e).inLen = s.inLen := rfl
@[simp] theorem setParseResult_outLen (u f : Byte) (r : U16) (d : Byte) (e : ErrInfo) : (s.setParseResult u f r d e).outLen = s.outLen := rfl
@[simp] theorem setParseResult_respUnit (u f : Byte) (r : U16) (d : Byte) (e : ErrInfo) : (s.setParseResult u f r d e).respUnit = u := rfl
@[simp] theorem setParseResult_respFc (u f : Byte) (r : U16) (d : Byte) (e : ErrInfo) : (s.setParseResult u f r d e).respFc = f := rfl
@[simp] theorem setParseResult_respReg (u f : Byte) (r : U16) (d : Byte) (e : ErrInfo) : (s.setParseResult u f r d e).respReg = r := rfl
@[simp] theorem setParseResult_respDevid (u f : Byte) (r : U16) (d : Byte) (e : ErrInfo) : (s.setParseResult u f r d e).respDevid = d := rfl
@[simp] theorem setParseResult_errInfo (u f : Byte) (r : U16) (d : Byte) (e : ErrInfo) : (s.setParseResult u f r d e).errInfo = e := rfl
@[simp] theorem setParseResult_inBuf (u f : Byte) (r : U16) (d : Byte) (e : ErrInfo) : (s.setParseResult u f r d e).inBuf = s.inBuf := rfl
@[simp] theorem setParseResult_outBuf (u f : Byte) (r : U16) (d : Byte) (e : ErrInfo) : (s.setParseResult u f r d e).outBuf = s.outBuf := rfl
@[simp] theorem setParseResult_events (u f : Byte) (r : U16) (d : Byte) (e : ErrInfo) : (s.setParseResult u f r d e).events = s.events := rfl
@[simp] theorem setParseResult_replies (u f : Byte) (r : U16) (d : Byte) (e : ErrInfo) : (s.setParseResult u f r d e).replies = s.replies := rfl
@[simp] theorem setParseResult_unlisted (u f : Byte) (r : U16) (d : Byte) (e : ErrInfo) : (s.setParseResult u f r d e).unlisted = s.unlisted := rfl
@[simp] theorem setParseResult_frameLen (u f : Byte) (r : U16) (d : Byte) (e : ErrInfo) : (s.setParseResult u f r d e).frameLen = s.frameLen := rfl
@[simp] theorem setParseResult_inCell (u f : Byte) (r : U16) (d : Byte) (e : ErrInfo) (k : Nat) : (s.setParseResult u f r d e).inCell k = s.inCell k := rfl
@[simp] theorem setParseResult_outCell (u f : Byte) (r : U16) (d : Byte) (e : ErrInfo) (k : Nat) : (s.setParseResult u f r d e).outCell k = s.outCell k := rfl

/-! ## pushReply -/

@[simp] theorem pushReply_cfg (w : Word) : (s.pushReply w).cfg = s.cfg := rfl
@[simp] theorem pushReply_status (w : Word) : (s.pushReply w).status = s.status := rfl
@[simp] theorem pushReply_crcAcc (w : Word) : (s.pushReply w).crcAcc = s.crcAcc := rfl
@[simp] theorem pushReply_reqUnit (w : Word) : (s.pushReply w).reqUnit = s.reqUnit := rfl
@[simp] theorem pushReply_reqFc (w : Word) : (s.pushReply w).reqFc = s.reqFc := rfl
@[simp] theorem pushReply_reqAddr (w : Word) : (s.pushReply w).reqAddr = s.reqAddr := rfl
@[simp] theorem pushReply_reqQty (w : Word) : (s.pushReply w).reqQty = s.reqQty := rfl
@[simp] theorem pushReply_inLen (w : Word) : (s.pushReply w).inLen = s.inLen := rfl
@[simp] theorem pushReply_outLen (w : Word) : (s.pushReply w).outLen = s.outLen := rfl
@[simp] theorem pushReply_respUnit (w : Word) : (s.pushReply w).respUnit = s.respUnit := rfl
@[simp] theorem pushReply_respFc (w : Word) : (s.pushReply w).respFc = s.respFc := rfl
@[simp] theorem pushReply_respReg (w : Word) : (s.pushReply w).respReg = s.respReg := rfl
@[simp] theorem pushReply_respDevid (w : Word) : (s.pushReply w).respDevid = s.respDevid := rfl
@[simp] theorem pushReply_errInfo (w : Word) : (s.pushReply w).errInfo = s.errInfo := rfl
@[simp] theorem pushReply_inBuf (w : Word) : (s.pushReply w).inBuf = s.inBuf := rfl
@[simp] theorem pushReply_outBuf (w : Word) : (s.pushReply w).outBuf = s.outBuf := rfl
@[simp] theorem pushReply_events (w : Word) : (s.pushReply w).events = s.events := rfl
@[simp] theorem pushReply_replies (w : Word) : (s.pushReply w).replies = w :: s.replies := rfl
@[simp] theorem pushReply_unlisted (w : Word) : (s.pushReply w).unlisted = s.unlisted := rfl
@[simp] theorem pushReply_frameLen (w : Word) : (s.pushReply w).frameLen = s.frameLen := rfl
@[simp] theorem pushReply_inCell (w : Word) (k : Nat) : (s.pushReply w).inCell k = s.inCell k := rfl
@[simp] theorem pushReply_outCell (w : Word) (k : Nat) : (s.pushReply w).outCell k = s.outCell k := rfl

/-! ## setEvents -/

@[simp] theorem setEvents_cfg (es : List PortEvent) : (s.setEvents es).cfg = s.cfg := rfl
@[simp] theorem setEvents_status (es : List PortEvent) : (s.setEvents es).status = s.status := rfl
@[simp] theorem setEvents_crcAcc (es : List PortEvent) : (s.setEvents es).crcAcc = s.crcAcc := rfl
@[simp] theorem setEvents_reqUnit (es : List PortEvent) : (s.setEvents es).reqUnit = s.reqUnit := rfl
@[simp] theorem setEvents_reqFc (es : List PortEvent) : (s.setEvents es).reqFc = s.reqFc := rfl
@[simp] theorem setEvents_reqAddr (es : List PortEvent) : (s.setEvents es).reqAddr = s.reqAddr := rfl
@[simp] theorem setEvents_reqQty (es : List PortEvent) : (s.setEvents es).reqQty = s.reqQty := rfl
@[simp] theorem setEvents_inLen (es : List PortEvent) : (s.setEvents es).inLen = s.inLen := rfl
@[simp] theorem setEvents_outLen (es : List PortEvent) : (s.setEvents es).outLen = s.outLen := rfl
@[simp] theorem setEvents_respUnit (es : List PortEvent) : (s.setEvents es).respUnit = s.respUnit := rfl
@[simp] theorem setEvents_respFc (es : List PortEvent) : (s.setEvents es).respFc = s.respFc := rfl
@[simp] theorem setEvents_respReg (es : List PortEvent) : (s.setEvents es).respReg = s.respReg := rfl
@[simp] theorem setEvents_respDevid (es : List PortEvent) : (s.setEvents es).respDevid = s.respDevid := rfl
@[simp] theorem setEvents_errInfo (es : List PortEvent) : (s.setEvents es).errInfo = s.errInfo := rfl
@[simp] theorem setEvents_inBuf (es : List PortEvent) : (s.setEvents es).inBuf = s.inBuf := rfl
@[simp] theorem setEvents_outBuf (es : List PortEvent) : (s.setEvents es).outBuf = s.outBuf := rfl
@[simp] theorem setEvents_events (es : List PortEvent) : (s.setEvents es).events = es := rfl
@[simp] theorem setEvents_replies (es : List PortEvent) : (s.setEvents es).replies = s.replies := rfl
@[simp] theorem setEvents_unlisted (es : List PortEvent) : (s.setEvents es).unlisted = s.unlisted := rfl
@[simp] theorem setEvents_frameLen (es : List PortEvent) : (s.setEvents es).frameLen = s.frameLen := rfl
@[simp] theorem setEvents_inCell (es : List PortEvent) (k : Nat) : (s.setEvents es).inCell k = s.inCell k := rfl
@[simp] theorem setEvents_outCell (es : List PortEvent) (k : Nat) : (s.setEvents es).outCell k = s.outCell k := rfl

/-! ## finish and raise (60_exceptions.md R184) -/

@[simp] theorem finish_eq (c : StatusCode) : finish c s = s.setStatus c.bits := rfl
@[simp] theorem raise_crc (e : CommandError) : raise .crc e s = s.setStatus e.status.bits := rfl
@[simp] theorem raise_build (e : CommandError) :
    raise .build e s = (s.setStatus e.status.bits).setOutLen 0 := rfl
@[simp] theorem raise_parse (e : CommandError) :
    raise .parse e s = parseErrorState e.status.bits e.errInfo.code e.errInfo.known s := rfl
@[simp] theorem raise_illegal (e : CommandError) : raise .illegal e s = s.setStatus e.status.bits := rfl

/-! ## applyReset (70_reset_and_hazards.md R200) -/

@[simp] theorem applyReset_cfg : s.applyReset.cfg = s.cfg := rfl
@[simp] theorem applyReset_status : s.applyReset.status = 0 := rfl
@[simp] theorem applyReset_crcAcc : s.applyReset.crcAcc = 0xFFFF := rfl
@[simp] theorem applyReset_reqUnit : s.applyReset.reqUnit = 0 := rfl
@[simp] theorem applyReset_reqFc : s.applyReset.reqFc = 0 := rfl
@[simp] theorem applyReset_reqAddr : s.applyReset.reqAddr = 0 := rfl
@[simp] theorem applyReset_reqQty : s.applyReset.reqQty = 0 := rfl
@[simp] theorem applyReset_inLen : s.applyReset.inLen = 0 := rfl
@[simp] theorem applyReset_outLen : s.applyReset.outLen = 0 := rfl
@[simp] theorem applyReset_respUnit : s.applyReset.respUnit = 0 := rfl
@[simp] theorem applyReset_respFc : s.applyReset.respFc = 0 := rfl
@[simp] theorem applyReset_respReg : s.applyReset.respReg = 0 := rfl
@[simp] theorem applyReset_respDevid : s.applyReset.respDevid = 0 := rfl
@[simp] theorem applyReset_errInfo : s.applyReset.errInfo = ⟨0, false⟩ := rfl
@[simp] theorem applyReset_inBuf : s.applyReset.inBuf = [] := rfl
@[simp] theorem applyReset_outBuf : s.applyReset.outBuf = [] := rfl
@[simp] theorem applyReset_events : s.applyReset.events = s.events := rfl
@[simp] theorem applyReset_replies : s.applyReset.replies = s.replies := rfl
@[simp] theorem applyReset_unlisted : s.applyReset.unlisted = s.unlisted := rfl

end Sys2Proof.Machine
end

