-- ==== Sys2Proof/Laws/Commands.lean ====
section
/-! SUPPORT. What the shared operations of the commands can do, said once: `Run`, `settle`, the reads of IN_BUF,
`emitFrame`. -/

namespace Sys2Proof.Machine

/-! ## Run -/

section
variable {α β : Type}

@[simp] theorem Run.andThen_done (a : α) (k : α → Run β) : (Run.done a).andThen k = k a := rfl
@[simp] theorem Run.andThen_raised (e : CommandError) (k : α → Run β) :
    (Run.raised e : Run α).andThen k = .raised e := rfl
@[simp] theorem Run.andThen_unwritten (k : α → Run β) : (Run.unwritten : Run α).andThen k = .unwritten := rfl

/-- The ways a sequence of two reads can come out with a result. -/
theorem Run.andThen_eq_done {r : Run α} {k : α → Run β} {b : β} :
    r.andThen k = .done b ↔ ∃ a, r = .done a ∧ k a = .done b := by
  cases r <;> simp

/-- The ways a sequence of two reads can raise. -/
theorem Run.andThen_eq_raised {r : Run α} {k : α → Run β} {e : CommandError} :
    r.andThen k = .raised e ↔ r = .raised e ∨ ∃ a, r = .done a ∧ k a = .raised e := by
  cases r <;> simp

/-- The ways a sequence of two reads can consume an unwritten cell. -/
theorem Run.andThen_eq_unwritten {r : Run α} {k : α → Run β} :
    r.andThen k = .unwritten ↔ r = .unwritten ∨ ∃ a, r = .done a ∧ k a = .unwritten := by
  cases r <;> simp

theorem Run.require_pos {p : Prop} [Decidable p] (h : p) (e : CommandError) (k : Run α) :
    Run.require p e k = k := if_pos h

theorem Run.require_neg {p : Prop} [Decidable p] (h : ¬p) (e : CommandError) (k : Run α) :
    Run.require p e k = .raised e := if_neg h

@[simp] theorem Run.ofCell_some (a : α) : Run.ofCell (some a) = .done a := rfl
@[simp] theorem Run.ofCell_none : Run.ofCell (none : Option α) = .unwritten := rfl

theorem Run.ofCell_eq_done {o : Option α} {a : α} : Run.ofCell o = .done a ↔ o = some a := by
  cases o <;> simp

/-! ## settle -/

variable {f : CommandFamily} {s t : State} {r : Run α} {success : α → State}

@[simp] theorem settle_done (a : α) : settle f s (.done a) success = .next (success a) := rfl
@[simp] theorem settle_raised (e : CommandError) :
    settle f s (.raised e : Run α) success = .next (raise f e s) := rfl
@[simp] theorem settle_unwritten : settle f s (.unwritten : Run α) success = .fault .unwrittenByte := rfl

/-- Everything a command that answers a next state can have done. -/
theorem settle_eq_next : settle f s r success = .next t ↔
    (∃ a, r = .done a ∧ t = success a) ∨ ∃ e, r = .raised e ∧ t = raise f e s := by
  cases r <;> simp [eq_comm]

/-- A command faults only on an unwritten cell. -/
theorem settle_eq_fault {x : Fault} : settle f s r success = .fault x ↔ r = .unwritten := by
  cases r <;> simp

/-- No command is refused. -/
theorem settle_ne_refused {x : Refusal} : settle f s r success ≠ .refused x := by
  cases r <;> simp

end

/-! ## Reads of IN_BUF -/

variable {s : State}

/-- IN_BUF[0..n-1] as a list, cell by cell. -/
theorem inBytes_eq_done {n : Nat} {bs : List Byte} :
    s.inBytes n = .done bs ↔
      bs.length = n ∧ ∀ (j : Nat) (h : j < bs.length), s.inCell j = some bs[j] := by
  simp [State.inBytes, Run.ofCell_eq_done, Memory.readCells_eq_some_iff, State.inCell]

/-- Reading IN_BUF never raises. -/
theorem inBytes_ne_raised {n : Nat} {e : CommandError} : s.inBytes n ≠ .raised e := by
  unfold State.inBytes
  cases s.inBuf.readCells s.unlisted 0 n <;> simp

/-- Inside the frame `byte(i)` is the cell. -/
theorem frameByte_inside {i : Int} (h : 0 ≤ i ∧ i < s.frameLen) :
    s.frameByte i = .ofCell (s.inCell i.toNat) := Run.require_pos h _ _

/-- Outside the frame `byte(i)` raises FRAME_MALFORMED (42_parse.md R142). -/
theorem frameByte_outside {i : Int} (h : ¬(0 ≤ i ∧ i < s.frameLen)) :
    s.frameByte i = .raised .frameMalformed := Run.require_neg h _ _

/-- `byte(i)` of a frame whose bytes are known. -/
theorem frameByte_of_bytes {f : List Byte} (hf : s.inBytes s.frameLen = .done f) (i : Nat) :
    s.frameByte (i : Int) = if h : i < f.length then .done f[i] else .raised .frameMalformed := by
  obtain ⟨hl, hr⟩ := inBytes_eq_done.1 hf
  split_ifs with h
  · rw [frameByte_inside ⟨by omega, by omega⟩, Int.toNat_natCast, hr i h, Run.ofCell_some]
  · exact frameByte_outside (by omega)

/-- A prefix of a frame whose bytes are known. -/
theorem inBytes_prefix {f : List Byte} (hf : s.inBytes s.frameLen = .done f) {n : Nat} (hn : n ≤ f.length) :
    s.inBytes n = .done (f.take n) := by
  obtain ⟨hl, hr⟩ := inBytes_eq_done.1 hf
  refine inBytes_eq_done.2 ⟨by simp [hn], fun j hj => ?_⟩
  rw [List.length_take] at hj
  rw [hr j (by omega), List.getElem_take]

/-- Under ZERO every command finds its bytes. -/
theorem inBytes_zero (h : s.cfg.bufReset = .zero) (n : Nat) : ∃ bs, s.inBytes n = .done bs := by
  obtain ⟨bs, hbs⟩ := Memory.readCells_zero s.inBuf 0 n
  exact ⟨bs, by rw [State.inBytes, State.unlisted, h, hbs, Run.ofCell_some]⟩

/-! ## The successful end of a build -/

/-- Everything `emitFrame` does: STATUS, OUT_LEN and OUT_BUF, and nothing else. -/
theorem emitFrame_eq (frame : List Byte) (s : State) :
    s.emitFrame frame =
      { s with status := 0, outLen := BitVec.ofNat 9 frame.length,
               outBuf := s.outBuf.writeCells s.unlisted 0 frame } := rfl

end Sys2Proof.Machine
end

