-- ==== Sys2Proof/Laws/Parse.lean ====
section
/-! SUPPORT. What each part of PARSE does on a frame whose bytes are known: the CRC check, the two scans in closed
form, and the terminal element. -/

namespace Sys2Proof.Machine

variable {s : State} {f : List Byte}

/-- A state that holds a frame has its bytes to read. -/
theorem HoldsFrame.inBytes (h : s.HoldsFrame f) : s.inBytes s.frameLen = .done f := by
  simp [State.inBytes, h.2]

theorem HoldsFrame.length (h : s.HoldsFrame f) : f.length = s.frameLen := (inBytes_eq_done.1 (HoldsFrame.inBytes h)).1

/-- `byte(i)` inside a known frame. -/
theorem frameByte_done (hf : s.inBytes s.frameLen = .done f) {i : Nat} (hi : i < f.length) :
    s.frameByte (i : Int) = .done (frameAt f i) := by
  rw [frameByte_of_bytes hf, dif_pos hi]
  simp [frameAt, hi]

/-- `byte(i)` past a known frame. -/
theorem frameByte_raised (hf : s.inBytes s.frameLen = .done f) {i : Nat} (hi : f.length ≤ i) :
    s.frameByte (i : Int) = .raised .frameMalformed := by
  rw [frameByte_of_bytes hf, dif_neg (by omega)]

/-- The CRC check on a known frame (42_parse.md R143). -/
theorem checkCrc_of_bytes (hf : s.inBytes s.frameLen = .done f) :
    s.checkCrc = if f.length < 2 then .raised .frameMalformed
      else if crcOk f = true then .done () else .raised .crcMismatch := by
  have hl := (inBytes_eq_done.1 hf).1
  unfold State.checkCrc State.framePair
  split_ifs with h2 hc
  · rcases Nat.lt_or_ge f.length 1 with h1 | h1
    · rw [frameByte_outside (by omega)]; rfl
    · rw [show ((s.frameLen : Int) - 1) = ((f.length - 1 : Nat) : Int) by omega, frameByte_done hf (by omega),
        frameByte_outside (s := s) (i := (s.frameLen : Int) - 2) (by omega)]
      rfl
  all_goals
    rw [show ((s.frameLen : Int) - 1) = ((f.length - 1 : Nat) : Int) by omega,
      show ((s.frameLen : Int) - 2) = ((f.length - 2 : Nat) : Int) by omega,
      frameByte_done hf (by omega), frameByte_done hf (by omega), ← hl, inBytes_prefix hf (by omega)]
    simp only [Run.andThen_done, frameAt]
  · exact Run.require_pos (by simpa [crcOk, show 2 ≤ f.length by omega] using hc) _ _
  · exact Run.require_neg (by simpa [crcOk, show 2 ≤ f.length by omega] using hc) _ _

/-! ## The bit scan (R152) -/

theorem scanBits_of_bytes (hf : s.inBytes s.frameLen = .done f) {k n : Nat} (hn : 3 + k + n ≤ f.length) :
    s.scanBits k n = .done (((f.drop (3 + k)).take n).flatMap bitsLsbFirst) := by
  induction n generalizing k with
  | zero => simp [State.scanBits]
  | succ n ih =>
    rw [State.scanBits, frameByte_done hf (by omega), ih (by omega), List.drop_eq_getElem_cons (i := 3 + k) (by omega),
      List.take_succ_cons]
    have h3 : 3 + k < f.length := by omega
    simp [frameAt, h3, show 3 + (k + 1) = 3 + k + 1 by omega]

/-! ## The word scan (R156, R158) -/

/-- `cont` at the k-th offset of the loop holds for the first `wordsRead` values of k. -/
theorem wordCont_iff (h : HalfMode) (m : Int) (k : Nat) :
    wordCont h (3 + 2 * (k : Int)) m = true ↔ k < wordsRead h m := by
  cases h <;> simp only [wordCont, wordsRead, decide_eq_true_eq, Int.lt_toNat] <;> try simp only [floorDiv2]
  all_goals omega

/-- The fuel of `wordElements` is never used up. -/
theorem wordsRead_le_fuel (h : HalfMode) (m : Int) : wordsRead h m ≤ (m + 8).toNat := by
  cases h <;> simp only [wordsRead] <;> omega

/-- The words of the loop from round k on. -/
theorem scanWords_of_bytes (hf : s.inBytes s.frameLen = .done f) (m : Int) {fuel k : Nat}
    (hfuel : wordsRead s.cfg.half m ≤ k + fuel) :
    s.scanWords m fuel (3 + 2 * (k : Int)) =
      if k < wordsRead s.cfg.half m ∧ f.length ≤ 2 * wordsRead s.cfg.half m + 2 then .raised .frameMalformed
      else .done ((List.range' k (wordsRead s.cfg.half m - k)).map fun j => frameWordAt f (3 + 2 * j)) := by
  induction fuel generalizing k with
  | zero => simp [State.scanWords, show ¬k < wordsRead s.cfg.half m by omega, show wordsRead s.cfg.half m - k = 0 by omega]
  | succ fuel ih =>
    rw [State.scanWords]
    by_cases hk : k < wordsRead s.cfg.half m
    · rw [if_pos ((wordCont_iff _ _ _).2 hk), show (3 + 2 * (k : Int) + 2) = 3 + 2 * ((k + 1 : Nat) : Int) by omega,
        ih (by omega)]
      unfold State.framePair
      rw [show (3 + 2 * (k : Int)) = ((3 + 2 * k : Nat) : Int) by omega,
        show (((3 + 2 * k : Nat) : Int) + 1) = ((3 + 2 * k + 1 : Nat) : Int) by omega]
      rcases Nat.lt_or_ge (3 + 2 * k) f.length with h1 | h1
      · rw [frameByte_done hf h1]
        rcases Nat.lt_or_ge (3 + 2 * k + 1) f.length with h2 | h2
        · rw [frameByte_done hf h2]
          simp only [Run.andThen_done]
          split_ifs with h3 h4 h4
          · rfl
          · omega
          · omega
          · rw [show wordsRead s.cfg.half m - k = (wordsRead s.cfg.half m - (k + 1)) + 1 by omega, List.range'_succ]
            rfl
        · rw [frameByte_raised hf h2]
          simp only [Run.andThen_done, Run.andThen_raised]
          rw [if_pos ⟨hk, by omega⟩]
      · rw [frameByte_raised hf h1]
        simp only [Run.andThen_raised]
        rw [if_pos ⟨hk, by omega⟩]
    · rw [if_neg (mt (wordCont_iff _ _ _).1 hk), if_neg (by omega), show wordsRead s.cfg.half m - k = 0 by omega]
      rfl

/-! ## The terminal element (R153, R159) -/

@[simp] theorem terminalElement_nil : terminalElement [] = .raised .noValue := rfl

theorem terminalElement_of_ne_nil {vals : List U16} (h : vals ≠ []) :
    terminalElement vals = .done (vals.getLast h) := by
  simp [terminalElement, List.getLast?_eq_getLast_of_ne_nil h]

end Sys2Proof.Machine
end

