-- ==== Sys2Proof/Laws/PerInstr.lean ====
section
/-! SUPPORT. What holds of each command as syntax: its canonical word, the row of the opcode table it selects, and
its well-formedness. One lemma per constructor of Instr. -/

namespace Sys2Proof.Laws.TableRow

/-- The canonical word of `i` selects exactly the rows of the opcode table that carry its name, sets no reserved bit
(30_encoding.md R80, R82), and decodes to `i` in the host's numbering too; and `i` is well formed. -/
abbrev Statement (i : Instr) : Prop :=
  (∀ r ∈ opcodeTable, r.selects (encode i) = decide (r.mnemonic = i.mnemonic))
  ∧ rsvdField (encode i) = 0
  ∧ decodeTableWord 32 (encode i).toNat = some i
  ∧ i.WellFormed

theorem crcInit : Statement .crcInit := by refine ⟨?_, ?_, ?_, ?_⟩ <;> decide

/-- A word whose low byte is 0x02 and whose high half is 0 selects the CRC_UPDATE row only. -/
theorem crcUpdate (imm8 : Byte) : Statement (.crcUpdate imm8) := by
  have hopc : opcField (encode (.crcUpdate imm8)) = 0x02 := by
    apply BitVec.eq_of_getLsbD_eq; intro j hj
    interval_cases j <;> simp [opcField, encode]
  have himm : imm8Field (encode (.crcUpdate imm8)) = imm8 := by
    apply BitVec.eq_of_getLsbD_eq; intro j hj
    interval_cases j <;> simp [imm8Field, encode]
  have hrsv : rsvdField (encode (.crcUpdate imm8)) = 0 := by
    apply BitVec.eq_of_getLsbD_eq; intro j hj
    interval_cases j <;> simp [rsvdField, encode]
  have hmask : encode (.crcUpdate imm8) &&& 0xFFFF00FF = (0x00000002 : Word) := by
    apply BitVec.eq_of_getLsbD_eq; intro j hj
    interval_cases j <;> simp [encode]
  refine ⟨?_, hrsv, ?_, ?_⟩
  · intro r hr
    simp only [opcodeTable, List.mem_cons, List.not_mem_nil, or_false] at hr
    rcases hr with rfl | rfl | rfl | rfl | rfl | rfl <;>
      exact decide_eq_decide.mpr (by rw [hmask]; simp [Instr.mnemonic])
  · have hw : tableWord 32 (encode (.crcUpdate imm8)).toNat = encode (.crcUpdate imm8) := by
      apply BitVec.eq_of_toNat_eq
      simp only [tableWord, BitVec.toNat_ofNat]
      have := (encode (.crcUpdate imm8)).isLt
      omega
    simp only [decodeTableWord, hw, decode, hrsv, hopc, himm]
    rfl
  · exact imm8.isLt

theorem crcBuf : Statement .crcBuf := by refine ⟨?_, ?_, ?_, ?_⟩ <;> decide

theorem buildRead : Statement .buildRead := by refine ⟨?_, ?_, ?_, ?_⟩ <;> decide

theorem buildFrame : Statement .buildFrame := by refine ⟨?_, ?_, ?_, ?_⟩ <;> decide

theorem parse : Statement .parse := by refine ⟨?_, ?_, ?_, ?_⟩ <;> decide

end Sys2Proof.Laws.TableRow
end

