-- ==== Sys2Proof/Laws/Port.lean ====
section
/-! SUPPORT. What the port can do, said once: which offsets are mapped, when an access is admitted, what a command
word runs, and every way a step can answer a next state. -/

namespace Sys2Proof.Machine

/-! ## The address map -/

/-- The map gives each target back from its own offset. -/
theorem portTarget_offset {n : Nat} (hn : n ≤ 256) (t : PortTarget)
    (ht : ∀ i, t = .inBuf i ∨ t = .outBuf i → i < n) : portTarget n t.offset = some t := by
  cases t with
  | inBuf i =>
    have := ht i (.inl rfl)
    unfold portTarget PortTarget.offset
    dsimp only
    rw [if_neg (by omega), if_pos (by omega), if_pos (by omega), show (0x400 + 4 * i - 0x400) / 4 = i by omega]
  | outBuf i =>
    have := ht i (.inr rfl)
    unfold portTarget PortTarget.offset
    dsimp only
    rw [if_neg (by omega), if_neg (by omega), if_pos (by omega), show (0x800 + 4 * i - 0x800) / 4 = i by omega]
  | _ => rfl

/-- CMD is at offset 0 alone. -/
theorem offset_of_cmd {n off : Nat} (ho : off % 4 = 0) (h : portTarget n off = some .cmd) : off = 0 := by
  unfold portTarget at h
  split_ifs at h <;> try simp at h
  by_contra hne
  obtain ⟨j, hj⟩ := Nat.exists_eq_succ_of_ne_zero (n := off / 4) (by omega)
  rw [hj] at h
  unfold registerTarget at h
  split at h <;> simp_all

/-- The IN_BUF window names cells below N. -/
theorem index_of_inBuf {n off i : Nat} (h : portTarget n off = some (.inBuf i)) : i < n := by
  unfold portTarget at h
  split_ifs at h <;> try simp at h
  · unfold registerTarget at h
    split at h <;> simp at h
  · omega

/-! ## Accesses -/

section
variable {s t : State} {size off : Nat} {k : PortTarget → Host.Outcome State Fault Refusal}

/-- An admitted access goes on with its target. -/
theorem admitAccess_mapped {p : PortTarget} (ho : off % 4 = 0) (hp : portTarget s.cfg.bufSize off = some p) :
    admitAccess 4 off s k = k p := by
  simp [admitAccess, ho, hp]

/-- Everything an access that answers a next state can have been. -/
theorem admitAccess_eq_next (h : admitAccess size off s k = .next t) :
    size = 4 ∧ off % 4 = 0 ∧ ∃ p, portTarget s.cfg.bufSize off = some p ∧ k p = .next t := by
  unfold admitAccess at h
  split_ifs at h with h1 h2
  cases hp : portTarget s.cfg.bufSize off with
  | none => simp [hp] at h
  | some p => exact ⟨by simpa using h1, by simpa using h2, p, rfl, by simpa [hp] using h⟩

/-- A read that answers a next state changed only what the host has been given. -/
theorem answerRead_eq_next {o : Option Word} (h : answerRead o s = .next t) :
    ∃ w, o = some w ∧ t = s.pushReply w := by
  cases o with
  | none => simp [answerRead] at h
  | some w => exact ⟨w, rfl, by simpa [answerRead, eq_comm] using h⟩

end

/-! ## Commands -/

theorem runCommandWord_command {w : Word} {i : Instr} (h : decode w = .command i) (s : State) :
    runCommandWord w s = exec i s := by simp [runCommandWord, h]

theorem runCommandWord_illegal {w : Word} {y : IllegalCmd} (h : decode w = .illegal y) (s : State) :
    runCommandWord w s = .next (s.setStatus 8) := by simp [runCommandWord, h, execIllegal]; rfl

/-! ## The step -/

theorem step_nil {s : State} (h : s.events = []) : step s = .next s := by simp [step, h]

theorem step_cons {s : State} {e : PortEvent} {rest : List PortEvent} (h : s.events = e :: rest) :
    step s = portEvent e (s.setEvents rest) := by simp [step, h]

/-- A read of a mapped offset, as a step. -/
theorem step_read {s : State} {rest : List PortEvent} {off : Nat} {p : PortTarget} (ho : off % 4 = 0)
    (hp : portTarget s.cfg.bufSize off = some p) :
    step (s.setEvents (.read 4 off :: rest)) = answerRead (s.readTarget p) (s.setEvents rest) := by
  rw [step_cons rfl]
  refine (admitAccess_mapped (s := s.setEvents rest) ho hp).trans ?_
  cases p <;> rfl

/-- A write to a mapped offset, as a step. -/
theorem step_write {s : State} {rest : List PortEvent} {off : Nat} {v : Word} {p : PortTarget} (ho : off % 4 = 0)
    (hp : portTarget s.cfg.bufSize off = some p) :
    step (s.setEvents (.write 4 off v :: rest)) = (s.setEvents rest).writeTarget p v := by
  rw [step_cons rfl]
  exact admitAccess_mapped (s := s.setEvents rest) ho hp

/-! ## Runs -/

@[simp] theorem run_zero (s : State) : Sys2Proof.core.run 0 s = .next s := rfl

/-- A run goes on from the state its first step answers. -/
theorem run_succ {s t : State} (h : step s = .next t) (k : Nat) :
    Sys2Proof.core.run (k + 1) s = Sys2Proof.core.run k t := by
  have h' : Sys2Proof.core.step s = .next t := h
  simp only [Host.Core.run, h']

/-! ## The cases of a step -/

/-- Everything a step that answers a next state can have done. -/
inductive StepCase (s t : State) : Prop
  /-- there was no event -/
  | idle (h : s.events = []) (ht : t = s)
  /-- a read: the host is given a word -/
  | read (off : Nat) (rest : List PortEvent) (p : PortTarget) (w : Word)
      (he : s.events = .read 4 off :: rest) (hp : portTarget s.cfg.bufSize off = some p)
      (hw : s.readTarget p = some w) (ht : t = (s.setEvents rest).pushReply w)
  /-- a write of a command word that names a command -/
  | command (v : Word) (rest : List PortEvent) (i : Instr) (he : s.events = .write 4 0 v :: rest)
      (hd : decode v = .command i) (ht : exec i (s.setEvents rest) = .next t)
  /-- a write of an illegal command word -/
  | illegal (v : Word) (rest : List PortEvent) (y : IllegalCmd) (he : s.events = .write 4 0 v :: rest)
      (hd : decode v = .illegal y) (ht : t = (s.setEvents rest).setStatus 8)
  /-- a store to an operand register or an IN_BUF cell, or a write that is ignored -/
  | store (off : Nat) (v : Word) (rest : List PortEvent) (p : PortTarget) (he : s.events = .write 4 off v :: rest)
      (hp : portTarget s.cfg.bufSize off = some p) (hc : p ≠ .cmd)
      (ht : (s.setEvents rest).writeTarget p v = .next t)
  /-- the reset input -/
  | reset (rest : List PortEvent) (he : s.events = .reset :: rest) (ht : t = (s.setEvents rest).applyReset)

theorem step_cases {s t : State} (h : step s = .next t) : StepCase s t := by
  cases hs : s.events with
  | nil => exact .idle hs (by simpa [step_nil hs, eq_comm] using h)
  | cons e rest =>
    rw [step_cons hs] at h
    cases e with
    | reset => exact .reset rest hs (by simpa [portEvent, eq_comm] using h)
    | read size off =>
      obtain ⟨rfl, -, p, hp, hk⟩ := admitAccess_eq_next h
      obtain ⟨w, hw, ht⟩ := answerRead_eq_next hk
      exact .read off rest p w hs hp (by rw [← hw]; cases p <;> rfl) ht
    | write size off v =>
      obtain ⟨rfl, hoff, p, hp, hk⟩ := admitAccess_eq_next h
      by_cases hc : p = .cmd
      · subst hc
        obtain rfl := offset_of_cmd hoff hp
        simp only [State.writeTarget] at hk
        cases hd : decode v with
        | command i => exact .command v rest i hs hd (by rwa [runCommandWord_command hd] at hk)
        | illegal y =>
          rw [runCommandWord_illegal hd] at hk
          exact .illegal v rest y hs hd (by simpa [eq_comm] using hk)
      · exact .store off v rest p hs hp hc hk

end Sys2Proof.Machine
end

