-- ==== Sys2Proof/Tests/Slice0.lean ====
section
/-! SUPPORT. Tests with results taken from spec/, and for every obligation with hypotheses a concrete input that
meets them. -/

open Sys2Proof Sys2Proof.Machine

namespace Sys2Proof.Tests

/-! ## Helpers -/

/-- The next state of an outcome, if it is one. -/
def next? (o : Host.Outcome State Fault Refusal) : Option State :=
  match o with
  | .next s => some s
  | .fault _ => none
  | .refused _ => none

theorem next_of_any {o : Host.Outcome State Fault Refusal} {p : State → Bool} (h : (next? o).any p = true) :
    ∃ t, o = .next t ∧ p t = true := by
  cases o <;> simp_all [next?]

/-- A state with the frame `f` in IN_BUF and its length in IN_LEN, else as after reset. -/
def holding (c : Config) (f : List Byte) : State :=
  { State.resetOf c with
    inLen := BitVec.ofNat 9 f.length, inBuf := Memory.writeCells (unlistedCell c.bufReset) [] 0 f }

/-- A state with the REQ registers set, over another. -/
def request (u f : Byte) (a q : U16) (s : State) : State :=
  { s with reqUnit := u, reqFc := f, reqAddr := a, reqQty := q }

/-- The state after reset with accesses to come. -/
def withEvents (es : List PortEvent) : State := { State.reset with events := es }

/-- The smallest buffers (00_scope.md R5), cells empty after reset. -/
def tiny : Config := { Config.hw with bufSize := 8, bufReset := .undef }

/-- This hardware but for P_HALF (00_scope.md R7). -/
def exactHw : Config := { Config.hw with half := .exact }

/-- MRP §8's response frame (95_test_vectors.md L1.7). -/
def frame8 : List Byte := [0x01, 0x03, 0x04, 0x00, 0x7A, 0x00, 0x7A, 0x5A, 0x09]

/-! ## WellFormed refuses ill-formed terms -/

/-- 00_scope.md section 3: N in 8..256, P_REMAIN_SUB in 0..15. -/
theorem test_config_checks :
    Config.hw.Legal ∧ ¬ ({ Config.hw with bufSize := 7 } : Config).Legal
    ∧ ¬ ({ Config.hw with bufSize := 257 } : Config).Legal
    ∧ ¬ ({ Config.hw with remainSub := 16 } : Config).Legal := by decide

/-- 30_encoding.md R80: IMM8 is an 8-bit field. -/
theorem test_immediate_check : immFits 0xFF ∧ ¬ immFits 0x100 ∧ (Instr.crcUpdate 0xFF).WellFormed := by decide

/-! ## Decoding, from words written out from 30_encoding.md R80, R82, R96 -/

/-- 95_test_vectors.md L2.6: 0x0000FF01 is CRC_INIT. -/
theorem test_decode_crc_init : decode 0b00000000000000001111111100000001 = .command .crcInit := by decide

/-- R96: `crc.update 0x7A`. -/
theorem test_decode_crc_update : decode 0b00000000000000000111101000000010 = .command (.crcUpdate 0x7A) := by decide

theorem test_decode_crc_buf : decode 0b00000000000000000000000000000011 = .command .crcBuf := by decide

/-- L2.6: 0x0000AB10 is BUILD_READ. -/
theorem test_decode_build_read : decode 0b00000000000000001010101100010000 = .command .buildRead := by decide

theorem test_decode_build_frame : decode 0b00000000000000000000000000010001 = .command .buildFrame := by decide

theorem test_decode_parse : decode 0b00000000000000000000000000100000 = .command .parse := by decide

/-- L2.6: the illegal words. -/
theorem test_decode_illegal :
    decode 0x000000FF = .illegal .unassignedOpcode ∧ decode 0x00000000 = .illegal .unassignedOpcode
    ∧ decode 0x00010010 = .illegal .reservedNonzero ∧ decode 0x00010002 = .illegal .reservedNonzero := by decide

/-! ## One step of each instruction (95_test_vectors.md) -/

/-- L2.2: CRC_INIT with IMM8 = 0xFF. -/
theorem test_crc_init :
    (next? (step { withEvents [.write 4 0x000 0x0000FF01] with crcAcc := 0x807E, status := 7 })).any
      (fun t => t.crcAcc == 0xFFFF && t.status == 0) = true := by decide +kernel

/-- L2.2: `crc.update 0x12` right after reset. -/
theorem test_crc_update :
    (next? (step (withEvents [.write 4 0x000 0x00001202]))).any
      (fun t => t.crcAcc == 0x4D3F && t.status == 0) = true := by decide +kernel

/-- L1.7. -/
theorem test_crc_buf :
    (next? (exec .crcBuf (holding Config.hw (frame8.take 7)))).any
      (fun t => t.crcAcc == 0x095A && t.status == 0) = true := by decide +kernel

/-- L2.2: IN_LEN = 257. -/
theorem test_crc_buf_long :
    (next? (exec .crcBuf { State.reset with inLen := 257, crcAcc := 0x807E })).any
      (fun t => t.crcAcc == 0x807E && t.status == 7) = true := by decide +kernel

/-- L1.5. -/
theorem test_build_read :
    (next? (exec .buildRead (request 1 4 1 3 State.reset))).any
      (fun t => t.status == 0 && t.outLen == 8
        && decide (t.OutHolds [0x01, 0x04, 0x00, 0x01, 0x00, 0x03, 0xE1, 0xCB])) = true := by decide +kernel

/-- L1.9. -/
theorem test_build_read_write_code :
    (next? (exec .buildRead { request 1 0x10 1 3 State.reset with outLen := 8 })).any
      (fun t => t.status == 4 && t.outLen == 0) = true := by decide +kernel

/-- L2.4 with N = 8. -/
theorem test_build_frame :
    (next? (exec .buildFrame (request 1 6 0 0 (holding tiny [0x00, 0x01, 0x00, 0x03])))).any
      (fun t => t.status == 0 && t.outLen == 8
        && decide (t.OutHolds [0x01, 0x06, 0x00, 0x01, 0x00, 0x03, 0x98, 0x0B])) = true := by decide +kernel

/-- L2.4 with N = 8: one byte too many. -/
theorem test_build_frame_long :
    (next? (exec .buildFrame (request 1 6 0 0 (holding tiny [0x00, 0x01, 0x00, 0x03, 0x00])))).any
      (fun t => t.status == 7 && t.outLen == 0 && t.outBuf == []) = true := by decide +kernel

/-- L1.8. -/
theorem test_parse :
    (next? (exec .parse (holding Config.hw frame8))).any
      (fun t => t == parseOkState 1 3 122 (holding Config.hw frame8) && t.respDevid == 23) = true := by decide +kernel

/-- L1.10. -/
theorem test_parse_exception :
    (next? (exec .parse (holding Config.hw [0x01, 0x83, 0x02, 0xC0, 0xF1]))).any
      (fun t => t.status == 2 && errInfoWord t.errInfo == 0x102 && t.respUnit == 0) = true := by decide +kernel

/-! ## Inputs that meet the hypotheses of the obligations -/

theorem witness_DecodeEncodeAgree : decode 0x0000FF01 = .command .crcInit := by decide

theorem witness_ImmediateIgnoredByOtherCommands :
    (0x0000FF20 : Word) &&& 0xFFFF00FF = 0x00000020 &&& 0xFFFF00FF
    ∧ (0x0000FF20 : Word).setWidth 8 ≠ (0x02 : Byte) := by decide

/-- Both grounds of R85: its own corner case and its own example. -/
theorem witness_IllegalCommandOnlySetsStatus :
    (∃ s : State, s.events = .write 4 0x000 0x00010001 :: [])
    ∧ (0x00010001 : Word).toNat / 65536 ≠ 0
    ∧ (0x00000005 : Word).toNat % 256 ∉ [0x01, 0x02, 0x03, 0x10, 0x11, 0x20] :=
  ⟨⟨withEvents [.write 4 0x000 0x00010001], rfl⟩, by decide, by decide⟩

theorem witness_StepRunsDecodedCommand :
    (withEvents [.write 4 0x000 0x00000003]).events = .write 4 0x000 0x00000003 :: []
    ∧ decode 0x00000003 = .command .crcBuf := by decide

/-- The table gives every row 32 bits. -/
theorem witness_FetchWordStepRunsTableWord : decodeTableWord 32 0x7A02 = some (.crcUpdate 0x7A) := by decide

theorem witness_IdleStepHoldsState : State.reset.events = [] := rfl

theorem witness_ResetStateValues : Config.hw.bufReset = .zero ∧ tiny.bufReset = .undef := ⟨rfl, rfl⟩

theorem witness_ResetEventRestoresReset : (withEvents [.reset]).events = .reset :: [] := rfl

/-- A refusal for each condition of R51, at the ends of the unmapped ranges of R52, and an access that is admitted. -/
theorem witness_AccessRefusedExactlyWhenNotAdmitted :
    State.reset.cfg.Legal ∧ tiny.Legal
    ∧ (withEvents [.read 2 0x004]).events = .read 2 0x004 :: []
    ∧ (withEvents [.write 4 0x006 5]).events = .write 4 0x006 5 :: []
    ∧ ¬ mappedOffset 256 0x03C ∧ ¬ mappedOffset 256 0x3FC ∧ ¬ mappedOffset 256 0xC00 ∧ ¬ mappedOffset 8 0x420
    ∧ mappedOffset 256 0x038 ∧ mappedOffset 256 0x7FC ∧ mappedOffset 256 0x800 ∧ mappedOffset 8 0x41C := by
  refine ⟨by decide, by decide, rfl, rfl, ?_, ?_, ?_, ?_, ?_, ?_, ?_, ?_⟩ <;> decide +kernel

/-- A cell that holds a value and one that holds none, at both ends of the windows. -/
theorem witness_ReadReturnsFields :
    State.reset.cfg.Legal ∧ (0 < State.reset.cfg.bufSize ∧ 255 < State.reset.cfg.bufSize)
    ∧ State.reset.inCell 255 = some 0 ∧ State.reset.outCell 0 = some 0
    ∧ tiny.Legal ∧ 7 < tiny.bufSize ∧ (State.resetOf tiny).inCell 7 = none ∧ (State.resetOf tiny).outCell 0 = none := by
  decide

theorem witness_WriteStoresField :
    State.reset.cfg.Legal ∧ State.reset.BuffersWf ∧ 255 < State.reset.cfg.bufSize ∧ tiny.Legal
    ∧ (State.resetOf tiny).BuffersWf ∧ 0 < tiny.bufSize := by decide

theorem witness_ReadOnlyWriteIgnored : State.reset.cfg.Legal ∧ 255 < State.reset.cfg.bufSize := by decide

theorem witness_PlainAccessLeavesOutputs :
    (PortEvent.write 4 0x00C 0x1FF).isPlainAccess
    ∧ ∃ t, step (withEvents [.write 4 0x00C 0x1FF]) = .next t :=
  ⟨by decide, _, rfl⟩

theorem witness_OperandWriteIdempotent :
    State.reset.cfg.Legal ∧ State.reset.BuffersWf
    ∧ ∃ t, step (withEvents [.write 4 0x40C 0x1234]) = .next t ∧ t.inCell 3 = some 0x34 :=
  ⟨by decide, by decide, _, rfl, by decide⟩

theorem witness_ParamHardwiredToConfiguration :
    Config.hw.Legal ∧ ∃ t, step (withEvents [.write 4 0x038 0]) = .next t := ⟨by decide, _, rfl⟩

/-- A word of each command with IMM8 set, for the statements that speak of every word of a command. -/
theorem witness_words_with_immediate :
    (0x0000FF01 : Word) &&& 0xFFFF00FF = 0x00000001 ∧ (0x0000FF03 : Word) &&& 0xFFFF00FF = 0x00000003
    ∧ (0x0000AB10 : Word) &&& 0xFFFF00FF = 0x00000010 ∧ (0x0000AB11 : Word) &&& 0xFFFF00FF = 0x00000011 := by decide

theorem witness_CrcOfWholeFrameIsZero : crcOk frame8 = true := by decide +kernel

/-- L = 0, L = 9, L = N, and L = N + 1. -/
theorem witness_CrcBufComputesCrc16 :
    (holding Config.hw []).HoldsFrame [] ∧ (holding Config.hw frame8).HoldsFrame frame8
    ∧ (holding tiny (frame8.take 8)).HoldsFrame (frame8.take 8) ∧ (frame8.take 8).length = tiny.bufSize
    ∧ (holding tiny frame8).cfg.bufSize < (holding tiny frame8).inLen.toNat := by decide +kernel

theorem witness_OnlyCrcCommandsWriteCrcAcc :
    ∃ t, step (withEvents [.write 4 0x000 0x00001202]) = .next t
      ∧ (t.crcAcc != (withEvents [.write 4 0x000 0x00001202]).crcAcc) = true :=
  next_of_any (p := fun t => t.crcAcc != (withEvents [.write 4 0x000 0x00001202]).crcAcc) (by decide +kernel)

/-- The ends of the accepted codes, and the refused codes beside them. -/
theorem witness_BuildReadEmitsRequestFrame :
    (request 0 1 0 0 State.reset).cfg.Legal ∧ (request 0 1 0 0 State.reset).BuffersWf
    ∧ (request 0 1 0 0 State.reset).reqFc = 1 ∧ (request 0 4 0 0 State.reset).reqFc = 4
    ∧ (∀ c ∈ ([0, 5, 0x83, 0xFF] : List Byte), ¬ ((request 0 c 0 0 State.reset).reqFc = 1
        ∨ (request 0 c 0 0 State.reset).reqFc = 2 ∨ (request 0 c 0 0 State.reset).reqFc = 3
        ∨ (request 0 c 0 0 State.reset).reqFc = 4)) := by decide

/-- P = 0, P = N - 4 and P = N - 3. -/
theorem witness_BuildFrameEmitsGenericFrame :
    tiny.Legal ∧ (holding tiny []).BuffersWf ∧ (holding tiny []).inLen.toNat + 4 ≤ tiny.bufSize
    ∧ (holding tiny []).HoldsFrame []
    ∧ (holding tiny [0, 1, 0, 3]).BuffersWf ∧ (holding tiny [0, 1, 0, 3]).inLen.toNat + 4 = tiny.bufSize
    ∧ (holding tiny [0, 1, 0, 3]).HoldsFrame [0, 1, 0, 3]
    ∧ (holding tiny [0, 1, 0, 3, 0]).cfg.bufSize < (holding tiny [0, 1, 0, 3, 0]).inLen.toNat + 4 := by decide

theorem witness_BuiltFrameSatisfiesCrcOk :
    State.reset.cfg.Legal ∧ (request 1 4 1 3 State.reset).BuffersWf
    ∧ ∃ t, exec .buildRead (request 1 4 1 3 State.reset) = .next t ∧ (t.status == 0) = true :=
  ⟨by decide, by decide, next_of_any (p := fun t => t.status == 0) (by decide +kernel)⟩

theorem witness_ParseRejectsLongFrames :
    ({ State.reset with inLen := 257 } : State).cfg.bufSize < ({ State.reset with inLen := 257 } : State).inLen.toNat
    ∧ (holding tiny frame8).cfg.bufSize < (holding tiny frame8).inLen.toNat := by decide

/-- L2.5: L = 0, L = 1; 00 00 and a frame with its last byte changed; FF FF. -/
theorem witness_ParseChecksCrcFirst :
    (holding Config.hw []).HoldsFrame [] ∧ (holding Config.hw [1]).HoldsFrame [1]
    ∧ (holding Config.hw [0, 0]).HoldsFrame [0, 0]
    ∧ (crc16 (([0, 0] : List Byte).take 0)).toNat ≠ 256 * (frameAt [0, 0] 1).toNat + (frameAt [0, 0] 0).toNat
    ∧ (holding Config.hw (frame8.set 8 8)).HoldsFrame (frame8.set 8 8)
    ∧ (crc16 ((frame8.set 8 8).take 7)).toNat
        ≠ 256 * (frameAt (frame8.set 8 8) 8).toNat + (frameAt (frame8.set 8 8) 7).toNat
    ∧ (holding Config.hw [0xFF, 0xFF]).HoldsFrame [0xFF, 0xFF] ∧ crcOk [0xFF, 0xFF] = true := by decide +kernel

theorem witness_CrcMismatchExactlyOnBadCrc :
    (holding Config.hw frame8).HoldsFrame frame8 ∧ 2 ≤ frame8.length ∧ crcOk frame8 = true
    ∧ (holding Config.hw [0, 0]).HoldsFrame [0, 0] ∧ crcOk [0, 0] = false := by decide +kernel

/-- The first and the last byte. -/
theorem witness_SingleByteCorruptionDetected :
    crcOk frame8 = true ∧ 0 < frame8.length ∧ 8 < frame8.length ∧ (0xFF : Byte) ≠ frameAt frame8 0
    ∧ (0x5A : Byte) ≠ frameAt frame8 8
    ∧ (holding Config.hw (frame8.set 0 0xFF)).HoldsFrame (frame8.set 0 0xFF)
    ∧ (holding Config.hw (frame8.set 8 0x5A)).HoldsFrame (frame8.set 8 0x5A) := by decide +kernel

/-- L2.5: b1 = 0x80 with code 0xFF; L = 3; and L = 2. -/
theorem witness_ParseReportsExceptionResponse :
    (∀ f ∈ ([ [0x01, 0x80, 0xFF, 0x01, 0x80], [0x00, 0xBF, 0x40], [0xFF, 0xFF] ] : List (List Byte)),
      (holding Config.hw f).HoldsFrame f ∧ crcOk f = true ∧ 0x80 ≤ (frameAt f 1).toNat) := by decide +kernel

/-- L2.5: codes 0x05, 0x00, 0x7F and 0x7E, of lengths 8 down to 3. -/
theorem witness_ParseReportsUnsupportedCode :
    (∀ f ∈ ([ [0x01, 0x05, 0x00, 0x01, 0xFF, 0x00, 0xDD, 0xFA], [0x01, 0x00, 0x00, 0x20, 0x00],
              [0x01, 0x7F, 0x41, 0xC0], [0x01, 0x7E, 0x80] ] : List (List Byte)),
      (holding Config.hw f).HoldsFrame f ∧ crcOk f = true
      ∧ ((frameAt f 1).toNat = 0 ∨ 5 ≤ (frameAt f 1).toNat ∧ (frameAt f 1).toNat ≤ 0x7F)) := by decide +kernel

/-- L2.5: d = 0 (L = 8), L = 5, L = 4; L = 6 clamped, and function code 2. -/
theorem witness_ParseBitDecodeReportsTerminalBit :
    (∀ f ∈ ([ [0x01, 0x01, 0x00, 0x01, 0x00, 0x08, 0x6C, 0x0C], [0x01, 0x01, 0x00, 0x21, 0x90],
              [0x01, 0x01, 0xC1, 0xE0] ] : List (List Byte)),
      (holding Config.hw f).HoldsFrame f ∧ crcOk f = true ∧ frameAt f 1 = 1
      ∧ ((frameAt f 2).toNat = 0 ∨ f.length ≤ 5))
    ∧ (∀ f ∈ ([ [0x01, 0x01, 0x05, 0x80, 0x52, 0xE8], [0x01, 0x02, 0x02, 0x00, 0x80, 0xB8, 0x18] ] : List (List Byte)),
      (holding Config.hw f).HoldsFrame f ∧ crcOk f = true ∧ (frameAt f 1 = 1 ∨ frameAt f 1 = 2)
      ∧ (frameAt f 2).toNat ≠ 0 ∧ 5 < f.length) := by decide +kernel

/-- L2.5: 01 03 40 21 reads no word under FLOOR and leaves the frame under EXACT; the frame of R157 reads one word
under FLOOR and two under EXACT. Both frames are held in a FLOOR and in an EXACT configuration. -/
theorem witness_ParseWordDecodeReportsTerminalWord :
    (holding Config.hw [0x01, 0x03, 0x40, 0x21]).HoldsFrame [0x01, 0x03, 0x40, 0x21]
    ∧ crcOk [0x01, 0x03, 0x40, 0x21] = true
    ∧ wordsRead .floor (min ((4 : Int) - 5) 0x40) = 0 ∧ wordsRead .exact (min ((4 : Int) - 5) 0x40) = 1
    ∧ (holding Config.hw [0x01, 0x03, 0x03, 0x11, 0x22, 0x33, 0x4D, 0x3E]).HoldsFrame
        [0x01, 0x03, 0x03, 0x11, 0x22, 0x33, 0x4D, 0x3E]
    ∧ crcOk [0x01, 0x03, 0x03, 0x11, 0x22, 0x33, 0x4D, 0x3E] = true
    ∧ wordsRead .floor (min ((8 : Int) - 5) 3) = 1 ∧ wordsRead .exact (min ((8 : Int) - 5) 3) = 2
    ∧ exactHw.half = .exact ∧ (holding exactHw [0x01, 0x03, 0x40, 0x21]).HoldsFrame [0x01, 0x03, 0x40, 0x21]
    ∧ (holding exactHw [0x01, 0x03, 0x03, 0x11, 0x22, 0x33, 0x4D, 0x3E]).HoldsFrame
        [0x01, 0x03, 0x03, 0x11, 0x22, 0x33, 0x4D, 0x3E] := by decide +kernel

/-- Two registers (MRP §8), and none. -/
theorem witness_WellFormedWordResponseReportsMiddleRegister :
    Config.hw.remainSub = 5
    ∧ (holding Config.hw frame8).HoldsFrame
        (withCrc ([1, 3, BitVec.ofNat 8 (2 * ([0x7A, 0x7A] : List U16).length)]
          ++ ([0x7A, 0x7A] : List U16).flatMap beBytes))
    ∧ (holding Config.hw [0x01, 0x03, 0x00, 0x20, 0xF0]).HoldsFrame
        (withCrc ([1, 3, BitVec.ofNat 8 (2 * ([] : List U16).length)] ++ ([] : List U16).flatMap beBytes)) := by
  decide +kernel

/-- L = 4 and L = 5. -/
theorem witness_FloorWordReadsStayInFrame :
    Config.hw.half = .floor ∧ Config.hw.remainSub = 5
    ∧ (∀ f ∈ ([ [0x01, 0x03, 0x40, 0x21], [0x01, 0x03, 0x00, 0x20, 0xF0] ] : List (List Byte)),
      (holding Config.hw f).HoldsFrame f ∧ crcOk f = true ∧ frameAt f 1 = 3) := by decide +kernel

theorem witness_HalfReadingsAgreeOnEvenLimit :
    (holding Config.hw frame8).HoldsFrame frame8
    ∧ (min ((frame8.length : Int) - 5) (frameAt frame8 2).toNat) % 2 = 0
    ∧ ∃ t, exec .parse (holding Config.hw frame8) = .next t ∧ (t.status == 0) = true :=
  ⟨by decide +kernel, by decide, next_of_any (p := fun t => t.status == 0) (by decide +kernel)⟩

theorem witness_ParseOkOnlyOnValidFrame :
    ∃ t, exec .parse (holding Config.hw [0x01, 0x01, 0x01, 0x7F, 0x10, 0x68]) = .next t ∧ (t.status == 0) = true :=
  next_of_any (p := fun t => t.status == 0) (by decide +kernel)

/-- EXCEPTION_RESPONSE, UNSUPPORTED_FC and another status. -/
theorem witness_ParseErrorWriteBack :
    (∃ t, exec .parse (holding Config.hw [0x01, 0x84, 0x08, 0x42, 0xC6]) = .next t ∧ (t.status == 2) = true)
    ∧ (∃ t, exec .parse (holding Config.hw [0x01, 0x7F, 0x41, 0xC0]) = .next t ∧ (t.status == 3) = true)
    ∧ (∃ t, exec .parse (holding Config.hw [0, 0]) = .next t ∧ (t.status == 1) = true) :=
  ⟨next_of_any (p := fun t => t.status == 2) (by decide +kernel),
   next_of_any (p := fun t => t.status == 3) (by decide +kernel),
   next_of_any (p := fun t => t.status == 1) (by decide +kernel)⟩

/-- A second state with other registers and another cell beyond the frame. -/
theorem witness_ParseDependsOnFrameOnly :
    (holding Config.hw frame8).HoldsFrame frame8
    ∧ ({ (holding Config.hw frame8).setInCell 9 0xEE with crcAcc := 0, reqUnit := 9, status := 8 } : State).HoldsFrame
        frame8 := by decide +kernel

/-- An OK and an error of each family. -/
theorem witness_CommandsWriteOnlyTheirOutputs :
    State.reset.cfg.Legal
    ∧ (∃ t, exec .crcBuf { State.reset with inLen := 257 } = .next t ∧ (t.status != 0) = true)
    ∧ (∃ t, exec .buildRead (request 1 4 1 3 State.reset) = .next t ∧ (t.status == 0) = true)
    ∧ (∃ t, exec .buildRead (request 1 5 1 3 State.reset) = .next t ∧ (t.status != 0) = true)
    ∧ (∃ t, exec .parse State.reset = .next t ∧ (t.status == 5) = true) :=
  ⟨by decide, next_of_any (p := fun t => t.status != 0) (by decide +kernel),
   next_of_any (p := fun t => t.status == 0) (by decide +kernel),
   next_of_any (p := fun t => t.status != 0) (by decide +kernel),
   next_of_any (p := fun t => t.status == 5) (by decide +kernel)⟩

theorem witness_CommandsKeepOperands :
    ∃ t, exec .buildFrame (request 1 6 0 0 (holding tiny [0, 1, 0, 3])) = .next t ∧ (t.status == 0) = true :=
  next_of_any (p := fun t => t.status == 0) (by decide +kernel)

/-- PARSE, and a command that keeps ERR_INFO. -/
theorem witness_NoCommandReadsStatusOrErrInfo :
    (∃ t, exec .parse { holding Config.hw frame8 with errInfo := ⟨0x02, true⟩ } = .next t ∧ (t.status == 0) = true)
    ∧ ∃ t, exec .crcBuf { holding Config.hw frame8 with errInfo := ⟨0x02, true⟩ } = .next t ∧ (t.status == 0) = true :=
  ⟨next_of_any (p := fun t => t.status == 0) (by decide +kernel),
   next_of_any (p := fun t => t.status == 0) (by decide +kernel)⟩

theorem witness_CommandsTotalUnderZero : State.reset.cfg.bufReset = .zero := rfl

/-- The right sides can hold: an unwritten cell inside IN_BUF[0..L-1], at L = 1. -/
theorem witness_CommandsFaultExactlyOnUnwrittenCells :
    ({ State.resetOf tiny with inLen := 1 } : State).inLen.toNat ≤ tiny.bufSize
    ∧ ({ State.resetOf tiny with inLen := 1 } : State).inLen.toNat + 4 ≤ tiny.bufSize
    ∧ ∃ j < ({ State.resetOf tiny with inLen := 1 } : State).inLen.toNat,
        ({ State.resetOf tiny with inLen := 1 } : State).inCell j = none := by decide

/-- The state a BUILD_FRAME leaves, with a frame in OUT_BUF. -/
theorem witness_CopyOutMovesFrame :
    ∃ t, exec .buildFrame (request 1 0x10 0 0 State.reset) = .next t
      ∧ (decide (t.Inv) && decide (t.OutHolds [0x01, 0x10, 0x01, 0xEC])) = true :=
  next_of_any (p := fun t => decide (t.Inv) && decide (t.OutHolds [0x01, 0x10, 0x01, 0xEC])) (by decide +kernel)

theorem witness_InvariantHoldsAtReset : Config.hw.Legal ∧ tiny.Legal := by decide

theorem witness_InvariantKeptByEveryStep :
    (withEvents [.write 4 0x000 0x00001202]).Inv
    ∧ ∃ t, step (withEvents [.write 4 0x000 0x00001202]) = .next t ∧ (t.status == 0) = true :=
  ⟨by decide +kernel, next_of_any (p := fun t => t.status == 0) (by decide +kernel)⟩

end Sys2Proof.Tests
end

/-! PROOFS of the statements about the state (10_state.md): the invariant, what each command writes and reads, and
PARAM. -/

namespace Sys2Proof.Machine

/-! ## What a command can do -/

section
variable {α : Type} {p : Prop} [Decidable p] {e x : CommandError} {k : Run α} {a : α}

theorem Run.require_eq_done : Run.require p e k = .done a ↔ p ∧ k = .done a := by
  by_cases h : p <;> simp [Run.require, h]

theorem Run.require_eq_raised :
    Run.require p e k = .raised x ↔ (¬p ∧ x = e) ∨ (p ∧ k = .raised x) := by
  by_cases h : p <;> simp [Run.require, h, eq_comm]

end

/-- Every way a command can answer a next state, with the check that selects it and everything it writes. -/
inductive CommandCase (s t : State) : Instr → Prop
  | crcInit (ht : t = (s.setCrcAcc crcInitial).setStatus 0) : CommandCase s t .crcInit
  | crcUpdate (b : Byte) (ht : t = (s.setCrcAcc (crcByte s.crcAcc b)).setStatus 0) : CommandCase s t (.crcUpdate b)
  | crcBuf (bs : List Byte) (hN : s.frameLen ≤ s.cfg.bufSize) (hbs : s.inBytes s.frameLen = .done bs)
      (ht : t = (s.setCrcAcc (crc16 bs)).setStatus 0) : CommandCase s t .crcBuf
  | crcBufLong (hN : ¬s.frameLen ≤ s.cfg.bufSize) (ht : t = s.setStatus 7) : CommandCase s t .crcBuf
  | buildRead (hfc : readFc s.reqFc = true) (ht : t = s.emitFrame s.readRequest) : CommandCase s t .buildRead
  | buildReadBadFc (hfc : ¬readFc s.reqFc = true) (ht : t = (s.setStatus 4).setOutLen 0) : CommandCase s t .buildRead
  | buildFrame (bs : List Byte) (hN : s.frameLen + 4 ≤ s.cfg.bufSize) (hbs : s.inBytes s.frameLen = .done bs)
      (ht : t = s.emitFrame (s.genericFrame bs)) : CommandCase s t .buildFrame
  | buildFrameLong (hN : ¬s.frameLen + 4 ≤ s.cfg.bufSize) (ht : t = (s.setStatus 7).setOutLen 0) :
      CommandCase s t .buildFrame
  | parse (p : Parsed) (hp : s.parseFrame = .done p) (ht : t = parseOkState p.unit p.fc p.reg s) :
      CommandCase s t .parse
  | parseError (e : CommandError) (hp : s.parseFrame = .raised e)
      (ht : t = parseErrorState e.status.bits e.errInfo.code e.errInfo.known s) : CommandCase s t .parse

theorem exec_cases {i : Instr} {s t : State} (h : exec i s = .next t) : CommandCase s t i := by
  cases i with
  | crcInit => exact .crcInit (Host.Outcome.next.inj h).symm
  | crcUpdate b => exact .crcUpdate b (Host.Outcome.next.inj h).symm
  | crcBuf =>
    obtain ⟨bs, hr, ht⟩ | ⟨e, hr, ht⟩ := settle_eq_next.1 h
    · obtain ⟨hN, hbs⟩ := Run.require_eq_done.1 hr
      exact .crcBuf bs hN hbs ht
    · obtain ⟨hN, rfl⟩ | ⟨-, hbs⟩ := Run.require_eq_raised.1 hr
      · exact .crcBufLong hN ht
      · exact absurd hbs inBytes_ne_raised
  | buildRead =>
    obtain ⟨frame, hr, ht⟩ | ⟨e, hr, ht⟩ := settle_eq_next.1 h
    · obtain ⟨hfc, hf⟩ := Run.require_eq_done.1 hr
      obtain rfl := Run.done.inj hf
      exact .buildRead hfc ht
    · obtain ⟨hfc, rfl⟩ | ⟨-, hf⟩ := Run.require_eq_raised.1 hr
      · exact .buildReadBadFc hfc ht
      · cases hf
  | buildFrame =>
    obtain ⟨bs, hr, ht⟩ | ⟨e, hr, ht⟩ := settle_eq_next.1 h
    · obtain ⟨hN, hbs⟩ := Run.require_eq_done.1 hr
      exact .buildFrame bs hN hbs ht
    · obtain ⟨hN, rfl⟩ | ⟨-, hbs⟩ := Run.require_eq_raised.1 hr
      · exact .buildFrameLong hN ht
      · exact absurd hbs inBytes_ne_raised
  | parse =>
    obtain ⟨p, hp, ht⟩ | ⟨e, hp, ht⟩ := settle_eq_next.1 h
    · exact .parse p hp ht
    · exact .parseError e hp ht

/-- Commands leave the configuration alone (10_state.md R36). -/
theorem exec_cfg {i : Instr} {s t : State} (h : exec i s = .next t) : t.cfg = s.cfg := by
  cases exec_cases h <;> subst_vars <;> rfl

/-! ## What a store can do -/

/-- A write that is no CMD write stores into operands only. -/
theorem writeTarget_eq_operands {s t : State} {p : PortTarget} {v : Word} (hc : p ≠ .cmd)
    (h : s.writeTarget p v = .next t) :
    t = { s with reqUnit := t.reqUnit, reqFc := t.reqFc, reqAddr := t.reqAddr, reqQty := t.reqQty,
                 inLen := t.inLen, inBuf := t.inBuf } := by
  cases p with
  | cmd => exact absurd rfl hc
  | _ => obtain rfl := Host.Outcome.next.inj h; rfl

/-- A write that is no CMD write stores into cells below N only, so IN_BUF stays canonical (20_memory.md R70). -/
theorem writeTarget_inBuf_wf {s t : State} {off : Nat} {p : PortTarget} {v : Word} {n : Nat} (hc : p ≠ .cmd)
    (hp : portTarget n off = some p) (h : s.writeTarget p v = .next t) (hw : s.inBuf.wf s.unlisted n) :
    t.inBuf.wf s.unlisted n := by
  cases p with
  | cmd => exact absurd rfl hc
  | inBuf i =>
    obtain rfl := Host.Outcome.next.inj h
    exact Memory.writeCell_wf hw (index_of_inBuf hp) _
  | _ => obtain rfl := Host.Outcome.next.inj h; exact hw

/-! ## What PARSE reports -/

theorem terminalElement_mem {vals : List U16} {v : U16} (h : terminalElement vals = .done v) : v ∈ vals := by
  unfold terminalElement at h
  split at h
  · next hl => obtain rfl := Run.done.inj h; exact List.mem_of_getLast? hl
  · cases h

/-- The bit decode yields 0 or 1 (42_parse.md R152). -/
theorem bitElements_le_one {s : State} {d : Byte} {vals : List U16} (h : s.bitElements d = .done vals) :
    ∀ v ∈ vals, v ≤ 1 := by
  obtain ⟨bits, -, hv⟩ := Run.andThen_eq_done.1 h
  obtain rfl := Run.done.inj hv
  intro v hv
  obtain ⟨b, -, rfl⟩ := List.mem_map.1 hv
  cases b <;> decide

/-- The function codes whose payload is decoded, and the bound on the value of a bit decode. -/
theorem decodePayload_done {s : State} {b1 : Byte} {reg : U16} (h : s.decodePayload b1 = .done reg) :
    ((b1 = 1 ∨ b1 = 2) ∧ reg ≤ 1) ∨ b1 = 3 ∨ b1 = 4 := by
  unfold State.decodePayload at h
  split_ifs at h with hbit hword
  · obtain ⟨d, -, hd⟩ := Run.andThen_eq_done.1 h
    obtain ⟨vals, hvals, hlast⟩ := Run.andThen_eq_done.1 hd
    exact .inl ⟨hbit, bitElements_le_one hvals reg (terminalElement_mem hlast)⟩
  · exact .inr hword

/-- PARSE ends in OK only when every check and read of 42_parse.md R164 passed. -/
theorem parseFrame_eq_done {s : State} {p : Parsed} : s.parseFrame = .done p ↔
    s.frameLen ≤ s.cfg.bufSize ∧ s.checkCrc = .done () ∧ s.frameByte 1 = .done p.fc
      ∧ s.decodeFrame p.fc = .done p.reg ∧ s.frameByte 0 = .done p.unit := by
  unfold State.parseFrame
  simp only [Run.require_eq_done, Run.andThen_eq_done, Run.done.injEq]
  constructor
  · rintro ⟨hN, ⟨⟩, hcrc, fc, hfc, reg, hreg, unit, hunit, rfl⟩
    exact ⟨hN, hcrc, hfc, hreg, hunit⟩
  · rintro ⟨hN, hcrc, hfc, hreg, hunit⟩
    exact ⟨hN, (), hcrc, p.fc, hfc, p.reg, hreg, p.unit, hunit, rfl⟩

/-- A successful PARSE reports a function code of 1 to 4, and 0 or 1 for the codes 1 and 2 (10_state.md R32, R33). -/
theorem parseFrame_done_fields {s : State} {p : Parsed} (h : s.parseFrame = .done p) :
    ((p.fc = 1 ∨ p.fc = 2) ∧ p.reg ≤ 1) ∨ p.fc = 3 ∨ p.fc = 4 := by
  obtain ⟨-, -, -, hdec, -⟩ := parseFrame_eq_done.1 h
  unfold State.decodeFrame at hdec
  split_ifs at hdec with hflag
  · obtain ⟨c, -, hc⟩ := Run.andThen_eq_done.1 hdec
    cases hc
  · exact decodePayload_done hdec

/-! ## Built frames -/

@[simp] theorem length_readRequest (s : State) : s.readRequest.length = 8 := by simp [State.readRequest]

@[simp] theorem length_genericFrame (s : State) (payload : List Byte) :
    (s.genericFrame payload).length = payload.length + 4 := by simp [State.genericFrame]

/-- A frame that fits the 9 bits of OUT_LEN has its length there, and the cells beyond it are as they were. -/
theorem emitFrame_frame (s : State) {frame : List Byte} (hN : frame.length < 512) :
    (s.emitFrame frame).outLen.toNat = frame.length
    ∧ ∀ j, frame.length ≤ j → (s.emitFrame frame).outCell j = s.outCell j :=
  ⟨Nat.mod_eq_of_lt hN, fun _ hj => Memory.readCell_writeCells_outside (.inr (by omega))⟩

/-- A frame with its CRC appended passes the check (41_build.md R123). -/
theorem crcOk_withCrc (bs : List Byte) : crcOk (withCrc bs) = true := by
  have hhi : (withCrc bs)[bs.length + 1]'(by simp) = hiByte (crc16 bs) := by simp [withCrc, leBytes]
  have hlo : (withCrc bs)[bs.length]'(by simp) = loByte (crc16 bs) := by simp [withCrc, leBytes]
  have htake : (withCrc bs).take bs.length = bs := by simp [withCrc]
  simp [crcOk, hhi, hlo, htake]

/-! ## Status codes and what an error carries -/

/-- The status codes of 60_exceptions.md R180 are 0 to 8. -/
theorem StatusCode.bits_le (c : StatusCode) : c.bits ≤ 8 := by cases c <;> decide

/-- An error sets KNOWN only over a code in 1..8 (42_parse.md R145). -/
theorem CommandError.known_code {e : CommandError} (h : e.errInfo.known = true) :
    1 ≤ e.errInfo.code ∧ e.errInfo.code ≤ 8 := by
  cases e with
  | exceptionResponse c => exact of_decide_eq_true h
  | _ => cases h

/-! ## The invariant, one rule per operation of the state -/

/-- The invariant of every state that reset leaves (70_reset_and_hazards.md R200). -/
theorem resetOf_inv {c : Config} (hc : c.Legal) : (State.resetOf c).Inv := by
  refine ⟨hc, ⟨Memory.wf_nil, Memory.wf_nil⟩, ?_, fun h => absurd rfl h⟩
  simp [State.FieldsLegal, State.resetOf]

section
variable {s : State}

theorem State.Inv.applyReset (h : s.Inv) : s.applyReset.Inv :=
  have ⟨hcfg, _⟩ := h
  resetOf_inv hcfg

/-- The invariant binds neither the host's side of the port nor CRC_ACC. -/
theorem State.Inv.setEvents (h : s.Inv) (es : List PortEvent) : (s.setEvents es).Inv := h

theorem State.Inv.pushReply (h : s.Inv) (w : Word) : (s.pushReply w).Inv := h

theorem State.Inv.setCrcAcc (h : s.Inv) (v : U16) : (s.setCrcAcc v).Inv := h

theorem State.Inv.setStatus (h : s.Inv) {c : BitVec 4} (hc : c ≤ 8) : (s.setStatus c).Inv := by
  obtain ⟨hcfg, hbuf, ⟨-, hfields⟩, hout⟩ := h
  exact ⟨hcfg, hbuf, ⟨hc, hfields⟩, hout⟩

theorem State.Inv.setOutLen_zero (h : s.Inv) : (s.setOutLen 0).Inv := by
  obtain ⟨hcfg, hbuf, ⟨hst, hfc, hreg, -, hresp⟩, -⟩ := h
  exact ⟨hcfg, hbuf, ⟨hst, hfc, hreg, .inl rfl, hresp⟩, fun hne => absurd rfl hne⟩

/-- A write that is no CMD write keeps the invariant: only IN_BUF among what it stores is bound by it. -/
theorem State.Inv.writeTarget (h : s.Inv) {t : State} {off : Nat} {p : PortTarget} {v : Word} (hc : p ≠ .cmd)
    (hp : portTarget s.cfg.bufSize off = some p) (ht : s.writeTarget p v = .next t) : t.Inv := by
  obtain ⟨hcfg, ⟨hin, hout⟩, hfields, hframe⟩ := h
  have hin' := writeTarget_inBuf_wf hc hp ht hin
  rw [writeTarget_eq_operands hc ht]
  exact ⟨hcfg, ⟨hin', hout⟩, hfields, hframe⟩

/-- A finished frame that fits the buffer is one whose CRC is right. -/
theorem State.Inv.emitFrame (h : s.Inv) {head : List Byte} (h2 : 2 ≤ head.length)
    (hN : head.length + 2 ≤ s.cfg.bufSize) : (s.emitFrame (withCrc head)).Inv := by
  obtain ⟨hcfg, ⟨hin, hout⟩, ⟨-, hfc, hreg, -, hresp⟩, -⟩ := h
  have ⟨_, h256, _⟩ := hcfg
  have hfit : 0 + (withCrc head).length ≤ s.cfg.bufSize := by simpa using hN
  obtain ⟨hlen, -⟩ := emitFrame_frame s (frame := withCrc head) (by omega)
  have hread : (s.emitFrame (withCrc head)).OutHolds (withCrc head) := by
    rw [State.OutHolds, hlen]
    exact Memory.readCells_writeCells hout hfit
  refine ⟨hcfg, ⟨hin, Memory.writeCells_wf hout hfit⟩,
    ⟨StatusCode.ok.bits_le, hfc, hreg, .inr ?_, hresp⟩, fun _ => ?_⟩
  · rw [hlen, length_withCrc]
    exact ⟨by omega, hN⟩
  · rw [hread]
    exact crcOk_withCrc head

theorem State.Inv.parseErrorState (h : s.Inv) {c : BitVec 4} {code : Byte} {known : Bool} (hc : c ≤ 8)
    (hk : known = true → 1 ≤ code ∧ code ≤ 8) : (parseErrorState c code known s).Inv := by
  obtain ⟨hcfg, hbuf, ⟨-, -, -, hlen, -⟩, hframe⟩ := h
  exact ⟨hcfg, hbuf, ⟨hc, Nat.zero_le _, fun _ => Nat.zero_le _, hlen, fun _ => ⟨rfl, rfl, rfl⟩,
    fun hne => absurd rfl hne, hk⟩, hframe⟩

theorem State.Inv.parseOkState (h : s.Inv) {unit fc : Byte} {reg : U16}
    (hf : ((fc = 1 ∨ fc = 2) ∧ reg ≤ 1) ∨ fc = 3 ∨ fc = 4) : (parseOkState unit fc reg s).Inv := by
  obtain ⟨hcfg, hbuf, ⟨-, -, -, hlen, -⟩, hframe⟩ := h
  have hfc : fc ≤ 4 ∧ fc ≠ 0 := by
    obtain ⟨rfl | rfl, -⟩ | rfl | rfl := hf <;> decide
  have hreg : fc = 1 ∨ fc = 2 → reg ≤ 1 := by
    rintro (rfl | rfl) <;> simpa using hf
  exact ⟨hcfg, hbuf, ⟨StatusCode.ok.bits_le, hfc.1, hreg, hlen, fun h0 => absurd h0 hfc.2, fun _ => ⟨rfl, rfl⟩,
    fun hk => absurd hk Bool.false_ne_true⟩, hframe⟩

end

/-! ## The invariant over commands and steps -/

theorem exec_inv {i : Instr} {s t : State} (h : s.Inv) (he : exec i s = .next t) : t.Inv := by
  have ⟨⟨hN, _⟩, _⟩ := h
  cases exec_cases he with
  | crcInit ht | crcUpdate _ ht | crcBuf _ _ _ ht => exact ht ▸ (h.setCrcAcc _).setStatus (by decide)
  | crcBufLong _ ht => exact ht ▸ h.setStatus (by decide)
  | buildRead _ ht => exact ht ▸ h.emitFrame (by simp) (by simpa using hN)
  | buildReadBadFc _ ht => exact ht ▸ (h.setStatus (by decide)).setOutLen_zero
  | buildFrame bs hlen hbs ht =>
    have hl : bs.length = s.frameLen := (inBytes_eq_done.1 hbs).1
    exact ht ▸ h.emitFrame (by simp) (by simpa [hl] using hlen)
  | buildFrameLong _ ht => exact ht ▸ (h.setStatus (by decide)).setOutLen_zero
  | parse p hp ht => exact ht ▸ h.parseOkState (parseFrame_done_fields hp)
  | parseError e _ ht => exact ht ▸ h.parseErrorState e.status.bits_le CommandError.known_code

/-- Settles O54, by the cases of a step: each is one operation of the state or one command, and each keeps the
invariant. -/
theorem invariantKeptByEveryStep : Obligations.InvariantKeptByEveryStep := by
  intro s t hs h
  cases step_cases h with
  | idle _ ht => exact ht ▸ hs
  | read _ rest _ w _ _ _ ht => exact ht ▸ (hs.setEvents rest).pushReply w
  | command _ rest _ _ _ hex => exact exec_inv (hs.setEvents rest) hex
  | illegal _ rest _ _ _ ht => exact ht ▸ (hs.setEvents rest).setStatus (by decide)
  | store _ _ rest _ _ hp hc hw => exact (hs.setEvents rest).writeTarget hc hp hw
  | reset rest _ ht => exact ht ▸ (hs.setEvents rest).applyReset

/-- Settles O53: the reset state is in the invariant for each legal configuration, and this hardware's is legal. -/
theorem invariantHoldsAtReset : Obligations.InvariantHoldsAtReset :=
  ⟨resetOf_inv (by decide), fun _ hc => resetOf_inv hc⟩

/-! ## PARAM -/

/-- An OR of two fields that do not overlap is their sum. -/
theorem toNat_or_eq_add {w : Nat} {x y : BitVec w} {a b : Nat} (k : Nat) (hx : x.toNat = a) (hy : y.toNat = b)
    (ha : 2 ^ k ∣ a) (hb : b < 2 ^ k) : (x ||| y).toNat = a + b := by
  obtain ⟨q, rfl⟩ := ha
  rw [BitVec.toNat_or, hx, hy, Nat.two_pow_add_eq_or_of_lt hb]

/-- A field of a port word is worth its value times its place. -/
theorem toNat_field {w : Nat} (x : BitVec w) {k : Nat} (h : w + k ≤ 32) :
    (x.setWidth 32 <<< k : Word).toNat = x.toNat * 2 ^ k := by
  have hx : x.toNat * 2 ^ k < 2 ^ 32 :=
    calc x.toNat * 2 ^ k < 2 ^ w * 2 ^ k := by gcongr; exact x.isLt
      _ = 2 ^ (w + k) := (pow_add ..).symm
      _ ≤ 2 ^ 32 := Nat.pow_le_pow_right (by decide) h
  have hx' : x.toNat < 2 ^ 32 := lt_of_le_of_lt (Nat.le_mul_of_pos_right _ (by positivity)) hx
  rw [BitVec.toNat_shiftLeft, BitVec.toNat_setWidth, Nat.mod_eq_of_lt hx', Nat.shiftLeft_eq, Nat.mod_eq_of_lt hx]

/-- A flag of a port word is worth its place when it is set. -/
theorem toNat_flag (p : Prop) [Decidable p] {k : Nat} (h : 1 + k ≤ 32) :
    ((BitVec.ofBool (decide p)).setWidth 32 <<< k : Word).toNat = if p then 2 ^ k else 0 := by
  rw [toNat_field _ h]
  by_cases hp : p <;> simp [hp]

/-- The PARAM word as the sum of its fields (10_state.md R36). -/
theorem paramWord_toNat {c : Config} (hc : c.Legal) :
    (paramWord c).toNat = c.bufSize + (if c.half = .exact then 2 ^ 12 else 0)
        + (if c.bufReset = .undef then 2 ^ 13 else 0) + c.remainSub * 2 ^ 16 + c.deviceId.toNat * 2 ^ 24 := by
  obtain ⟨-, hN, hsub⟩ := hc
  have hlow : ((BitVec.ofNat 9 c.bufSize).setWidth 32).toNat = c.bufSize := by simp; omega
  have hsubField : ((BitVec.ofNat 4 c.remainSub).setWidth 32 <<< 16).toNat = c.remainSub * 2 ^ 16 := by
    rw [toNat_field _ (by decide), BitVec.toNat_ofNat, Nat.mod_eq_of_lt (by omega)]
  have h24 := toNat_or_eq_add 24 (toNat_field c.deviceId (k := 24) (by decide)) hsubField (by omega) (by omega)
  have h16 := toNat_or_eq_add 16 h24 (toNat_flag (c.bufReset = .undef) (k := 13) (by decide)) (by omega)
    (by split_ifs <;> decide)
  have h13 := toNat_or_eq_add 13 h16 (toNat_flag (c.half = .exact) (k := 12) (by decide)) (by split_ifs <;> omega)
    (by split_ifs <;> decide)
  have h12 := toNat_or_eq_add 12 h13 hlow (by split_ifs <;> omega) (by omega)
  rw [paramWord, h12]
  ring

/-- No step changes the configuration (10_state.md R36). -/
theorem step_cfg {s t : State} (h : step s = .next t) : t.cfg = s.cfg := by
  cases step_cases h with
  | idle _ ht => rw [ht]
  | read _ _ _ _ _ _ _ ht | illegal _ _ _ _ _ ht | reset _ _ ht => rw [ht]; rfl
  | command _ _ _ _ _ hex => exact (exec_cfg hex :)
  | store _ _ _ _ _ _ hc hw => rw [writeTarget_eq_operands hc hw]; rfl

/-- Settles O17: the port reads PARAM and ignores a write to it, its word is a sum of fields that do not overlap, and
each case of a step keeps the configuration. -/
theorem paramHardwiredToConfiguration : Obligations.ParamHardwiredToConfiguration :=
  ⟨fun s _ _ => ⟨step_read (s := s) (p := .param) rfl rfl, step_write (s := s) (p := .param) rfl rfl⟩,
    fun _ hc => paramWord_toNat hc, by decide, fun _ _ h => step_cfg h⟩

/-- Settles O27, by the cases of a step and, for a command, of what it writes. -/
theorem onlyCrcCommandsWriteCrcAcc : Obligations.OnlyCrcCommandsWriteCrcAcc := by
  intro s t h hne
  cases step_cases h with
  | idle _ ht => exact absurd (by rw [ht]) hne
  | read _ _ _ _ _ _ _ ht => exact absurd (by rw [ht]; rfl) hne
  | command w rest i he hd hex =>
    refine ⟨rest, .inr ⟨w, he, ?_⟩⟩
    rw [hd]
    cases exec_cases hex with
    | crcInit _ => exact .inl rfl
    | crcUpdate b _ => exact .inr (.inl ⟨b, rfl⟩)
    | crcBuf _ _ _ _ => exact .inr (.inr rfl)
    | crcBufLong _ _ => exact .inr (.inr rfl)
    | buildRead _ ht | buildReadBadFc _ ht | buildFrame _ _ _ ht | buildFrameLong _ ht | parse _ _ ht
    | parseError _ _ ht => exact absurd (by rw [ht]; rfl) hne
  | illegal _ _ _ _ _ ht => exact absurd (by rw [ht]; rfl) hne
  | store _ _ _ _ _ _ hc ht => exact absurd (by rw [writeTarget_eq_operands hc ht]; rfl) hne
  | reset rest he _ => exact ⟨rest, .inl he⟩

/-! ## The columns of R43 -/

/-- The CRC commands' row: STATUS and CRC_ACC, the latter on OK only. -/
theorem exec_crc_columns {i : Instr} {s t : State} (hi : i = .crcInit ∨ (∃ b, i = .crcUpdate b) ∨ i = .crcBuf)
    (h : exec i s = .next t) :
    t = { s with status := t.status, crcAcc := t.crcAcc } ∧ (t.status ≠ 0 → t.crcAcc = s.crcAcc) := by
  cases exec_cases h with
  | crcInit ht | crcUpdate _ ht | crcBuf _ _ _ ht => subst ht; exact ⟨rfl, fun hst => absurd rfl hst⟩
  | crcBufLong _ ht => subst ht; exact ⟨rfl, fun _ => rfl⟩
  | buildRead | buildReadBadFc | buildFrame | buildFrameLong | parse | parseError => simp at hi

/-- The build commands' row: STATUS, OUT_LEN and OUT_BUF. -/
theorem exec_build_columns {i : Instr} {s t : State} (hi : i = .buildRead ∨ i = .buildFrame)
    (h : exec i s = .next t) : t = { s with status := t.status, outLen := t.outLen, outBuf := t.outBuf } := by
  cases exec_cases h with
  | buildRead _ ht | buildReadBadFc _ ht | buildFrame _ _ _ ht | buildFrameLong _ ht => subst ht; rfl
  | crcInit | crcUpdate | crcBuf | crcBufLong | parse | parseError => simp at hi

/-- A build that fails clears OUT_LEN and leaves OUT_BUF alone (60_exceptions.md R184). -/
theorem exec_build_failed {i : Instr} {s t : State} (hi : i = .buildRead ∨ i = .buildFrame)
    (h : exec i s = .next t) (hst : t.status ≠ 0) : t.outLen = 0 ∧ t.outBuf = s.outBuf := by
  cases exec_cases h with
  | buildRead _ ht | buildFrame _ _ _ ht => subst ht; exact absurd rfl hst
  | buildReadBadFc _ ht | buildFrameLong _ ht => subst ht; exact ⟨rfl, rfl⟩
  | crcInit | crcUpdate | crcBuf | crcBufLong | parse | parseError => simp at hi

/-- A build that succeeds puts a frame of the length of its kind into OUT_BUF and leaves the cells beyond it alone. -/
theorem exec_build_ok {i : Instr} {s t : State} (hcfg : s.cfg.Legal) (hi : i = .buildRead ∨ i = .buildFrame)
    (h : exec i s = .next t) (hst : t.status = 0) :
    t.outLen.toNat = (if i = .buildRead then 8 else s.inLen.toNat + 4)
    ∧ ∀ j, t.outLen.toNat ≤ j → t.outCell j = s.outCell j := by
  have ⟨_, h256, _⟩ := hcfg
  cases exec_cases h with
  | buildRead _ ht =>
    obtain ⟨hlen, hcells⟩ := emitFrame_frame s (frame := s.readRequest) (by simp)
    subst ht
    exact ⟨by simpa using hlen, fun j hj => hcells j (hlen ▸ hj)⟩
  | buildFrame bs hN hbs ht =>
    have hl : bs.length = s.inLen.toNat := (inBytes_eq_done.1 hbs).1
    have hN' : s.inLen.toNat + 4 ≤ s.cfg.bufSize := hN
    obtain ⟨hlen, hcells⟩ := emitFrame_frame s (frame := s.genericFrame bs) (by simp; omega)
    subst ht
    exact ⟨by simpa [hl] using hlen, fun j hj => hcells j (hlen ▸ hj)⟩
  | buildReadBadFc _ ht | buildFrameLong _ ht => subst ht; simp at hst
  | crcInit | crcUpdate | crcBuf | crcBufLong | parse | parseError => simp at hi

/-- PARSE's row: STATUS, the RESP registers and ERR_INFO. -/
theorem exec_parse_columns {s t : State} (h : exec .parse s = .next t) :
    t = { s with status := t.status, respUnit := t.respUnit, respFc := t.respFc, respReg := t.respReg,
                 respDevid := t.respDevid, errInfo := t.errInfo } := by
  cases exec_cases h with
  | parse _ _ ht | parseError _ _ ht => subst ht; rfl

/-- The illegal command's row: STATUS. -/
theorem execIllegal_columns {s t : State} (h : execIllegal s = .next t) : t = { s with status := t.status } := by
  obtain rfl := Host.Outcome.next.inj h
  rfl

/-- Settles O47, row by row of the table of 10_state.md R43. -/
theorem commandsWriteOnlyTheirOutputs : Obligations.CommandsWriteOnlyTheirOutputs := by
  intro s t hcfg
  refine ⟨fun i hi h => exec_crc_columns hi h, fun i hi h => ?_, exec_parse_columns, execIllegal_columns⟩
  refine ⟨exec_build_columns hi h, exec_build_failed hi h, fun hst => ?_⟩
  obtain ⟨hlen, hcells⟩ := exec_build_ok hcfg hi h hst
  refine ⟨?_, ?_, hcells⟩ <;> rintro rfl
  · exact BitVec.eq_of_toNat_eq hlen
  · exact hlen

/-! ## What commands read -/

section
variable {s s' : State} (hc : s'.cfg = s.cfg) (hl : s'.inLen = s.inLen) (hb : s'.inBuf = s.inBuf)
include hc hb

theorem inBytes_congr (n : Nat) : s'.inBytes n = s.inBytes n := by
  simp only [State.inBytes, State.unlisted, hc, hb]

include hl

theorem frameByte_congr (i : Int) : s'.frameByte i = s.frameByte i := by
  unfold State.frameByte State.frameLen State.inCell State.unlisted
  rw [hc, hl, hb]

theorem framePair_congr (i j : Int) : s'.framePair i j = s.framePair i j := by
  simp only [State.framePair, frameByte_congr hc hl hb]

theorem scanBits_congr (k n : Nat) : s'.scanBits k n = s.scanBits k n := by
  induction n generalizing k with
  | zero => rfl
  | succ n ih => simp only [State.scanBits, frameByte_congr hc hl hb, ih]

theorem scanWords_congr (m : Int) (fuel : Nat) (i : Int) : s'.scanWords m fuel i = s.scanWords m fuel i := by
  induction fuel generalizing i with
  | zero => rfl
  | succ fuel ih => simp only [State.scanWords, framePair_congr hc hl hb, hc, ih]

theorem checkCrc_congr : s'.checkCrc = s.checkCrc := by
  simp only [State.checkCrc, State.frameLen, hl, framePair_congr hc hl hb, inBytes_congr hc hb]

theorem decodePayload_congr (b1 : Byte) : s'.decodePayload b1 = s.decodePayload b1 := by
  simp only [State.decodePayload, State.bitElements, State.wordElements, State.effectiveCount, State.wordLimit,
    State.frameLen, hc, hl, frameByte_congr hc hl hb, scanBits_congr hc hl hb, scanWords_congr hc hl hb]

/-- PARSE reads the configuration, IN_LEN and IN_BUF, and nothing else of the state (42_parse.md R162). -/
theorem parseFrame_congr : s'.parseFrame = s.parseFrame := by
  unfold State.parseFrame State.frameLen State.decodeFrame
  rw [hc, hl, checkCrc_congr hc hl hb]
  simp only [frameByte_congr hc hl hb, decodePayload_congr hc hl hb]

end

section
variable {α : Type} {f : CommandFamily} {s s' t : State} {r r' : Run α} {success success' : α → State}

/-- Two commands whose work comes out alike and whose write-backs agree answer alike. -/
theorem settle_congr (hwork : r' = r) (hraise : ∀ e, raise f e s' = raise f e s)
    (hsuccess : ∀ a, success' a = success a) : settle f s' r' success' = settle f s r success := by
  subst hwork
  cases r' with
  | done a => exact congrArg Host.Outcome.next (hsuccess a)
  | raised e => exact congrArg Host.Outcome.next (hraise e)
  | unwritten => rfl

/-- A change of the state that the work does not see and the write-backs carry along is seen in the answer alone. -/
theorem settle_map (g : State → State) (h : settle f s r success = .next t)
    (hraise : ∀ e, raise f e (g s) = g (raise f e s)) (hsuccess : ∀ a, success' a = g (success a)) :
    settle f (g s) r success' = .next (g t) := by
  obtain ⟨a, rfl, rfl⟩ | ⟨e, rfl, rfl⟩ := settle_eq_next.1 h
  · exact congrArg Host.Outcome.next (hsuccess a)
  · exact congrArg Host.Outcome.next (hraise e)

end

/-- Every command overwrites STATUS and none reads it (60_exceptions.md R182). -/
theorem exec_status_irrelevant (i : Instr) (s : State) (c : BitVec 4) : exec i { s with status := c } = exec i s := by
  cases i with
  | crcInit | crcUpdate _ => rfl
  | crcBuf | buildRead | buildFrame => exact settle_congr rfl (fun _ => rfl) (fun _ => rfl)
  | parse => exact settle_congr (parseFrame_congr rfl rfl rfl) (fun _ => rfl) (fun _ => rfl)

/-- PARSE overwrites ERR_INFO and does not read it (60_exceptions.md R183). -/
theorem exec_parse_errInfo_irrelevant (s : State) (e : ErrInfo) :
    exec .parse { s with errInfo := e } = exec .parse s :=
  settle_congr (parseFrame_congr rfl rfl rfl) (fun _ => rfl) (fun _ => rfl)

/-- A command other than PARSE carries ERR_INFO along (10_state.md R43). -/
theorem exec_errInfo_kept {i : Instr} (hi : i ≠ .parse) {s t : State} (h : exec i s = .next t) (e : ErrInfo) :
    exec i { s with errInfo := e } = .next { t with errInfo := e } := by
  cases i with
  | crcInit | crcUpdate _ => obtain rfl := Host.Outcome.next.inj h; rfl
  | crcBuf | buildRead | buildFrame =>
    exact settle_map (fun u => { u with errInfo := e }) h (fun _ => rfl) (fun _ => rfl)
  | parse => exact absurd rfl hi

/-- Settles O49: STATUS is overwritten by every command, and ERR_INFO is overwritten by PARSE and carried along by the
others. -/
theorem noCommandReadsStatusOrErrInfo : Obligations.NoCommandReadsStatusOrErrInfo := by
  refine fun i s => ⟨exec_status_irrelevant i s, fun e t h => ?_⟩
  by_cases hi : i = .parse
  · subst hi
    exact ⟨t, (exec_parse_errInfo_irrelevant s e).trans h, rfl, fun hne => absurd rfl hne, fun _ => rfl⟩
  · exact ⟨{ t with errInfo := e }, exec_errInfo_kept hi h e, rfl, fun _ => rfl, fun hp => absurd hp hi⟩

end Sys2Proof.Machine

/-! PROOFS of the statements about the port (20_memory.md): which accesses it refuses, what a read returns, what a
write stores, and what the next access of a step runs. -/

namespace Sys2Proof.Machine

/-! ## The step at a given access -/

/-- Taking the events a state already has changes nothing. -/
theorem setEvents_self {s : State} {es : List PortEvent} (h : s.events = es) : s.setEvents es = s := by
  subst h; rfl

/-- A write of a command word at CMD's offset runs that word (20_memory.md R56). -/
theorem step_write_cmd (s : State) (w : Word) (rest : List PortEvent) :
    step (s.setEvents (.write 4 0x000 w :: rest)) = runCommandWord w (s.setEvents rest) :=
  step_write (p := .cmd) rfl rfl

/-- Settles O6: the access reaches CMD, whose write runs the command the word decodes to. -/
theorem stepRunsDecodedCommand : Obligations.StepRunsDecodedCommand := by
  intro s w i rest he hd
  calc step s = step (s.setEvents (.write 4 0x000 w :: rest)) := by rw [setEvents_self he]
    _ = runCommandWord w (s.setEvents rest) := step_write_cmd s w rest
    _ = exec i { s with events := rest } := runCommandWord_command hd _

theorem Decoded.toInstr?_eq_some {d : Decoded} {i : Instr} : d.toInstr? = some i ↔ d = .command i := by
  cases d <;> simp [Decoded.toInstr?]

/-- Settles O7: `withFetchWord` is a CMD write in front of the events, and taking it away gives the state back. -/
theorem fetchWordStepRunsTableWord : Obligations.FetchWordStepRunsTableWord := by
  intro s nbits w i hw
  have hd : decode (tableWord nbits w) = .command i := Decoded.toInstr?_eq_some.1 hw
  exact (step_write_cmd s (tableWord nbits w) s.events).trans (runCommandWord_command hd s)

/-! ## Refusals (R51, R52) -/

/-- The register numbers in use are 0 to 14 (10_state.md register table). -/
theorem registerTarget_isSome_iff (k : Nat) : (registerTarget k).isSome ↔ k ≤ 14 := by
  constructor
  · intro h
    by_contra hk
    obtain ⟨j, rfl⟩ : ∃ j, k = j + 15 := ⟨k - 15, by omega⟩
    cases h
  · intro h
    interval_cases k <;> rfl

/-- An IN_BUF window offset reaches its cell. -/
theorem portTarget_inBuf {n i : Nat} (hN : n ≤ 256) (hi : i < n) : portTarget n (0x400 + 4 * i) = some (.inBuf i) :=
  portTarget_offset hN (.inBuf i) (by simp [hi])

/-- An OUT_BUF window offset reaches its cell. -/
theorem portTarget_outBuf {n i : Nat} (hN : n ≤ 256) (hi : i < n) :
    portTarget n (0x800 + 4 * i) = some (.outBuf i) :=
  portTarget_offset hN (.outBuf i) (by simp [hi])

/-- The address map reaches something at exactly the mapped offsets. -/
theorem portTarget_isSome_iff {n off : Nat} (hN : n ≤ 256) (ho : off % 4 = 0) :
    (portTarget n off).isSome ↔ mappedOffset n off := by
  constructor
  · intro h
    unfold portTarget at h
    split_ifs at h with h1 h2 h3 h4
    · rw [registerTarget_isSome_iff] at h
      exact .inl ⟨ho, by omega⟩
    · exact .inr (.inl ⟨_, h3, by omega⟩)
    · simp at h
    · exact .inr (.inr ⟨_, h4, by omega⟩)
    · simp at h
  · rintro (⟨-, h⟩ | ⟨i, hi, rfl⟩ | ⟨i, hi, rfl⟩)
    · rw [portTarget, if_pos (by omega), registerTarget_isSome_iff]
      omega
    · simp [portTarget_inBuf hN hi]
    · simp [portTarget_outBuf hN hi]

/-- When what follows an admitted access is no refusal, only R51 refuses. -/
theorem admitAccess_refused_iff {s : State} {size off : Nat} {k : PortTarget → Host.Outcome State Fault Refusal}
    (hk : ∀ p r, k p ≠ .refused r) :
    (∃ r, admitAccess size off s k = .refused r) ↔
      ¬(size = 4 ∧ off % 4 = 0 ∧ (portTarget s.cfg.bufSize off).isSome) := by
  unfold admitAccess
  split_ifs with h1 h2
  · simp [h1]
  · simp [h2]
  · cases portTarget s.cfg.bufSize off with
    | none => simp
    | some p => simp [not_not.1 h1, not_not.1 h2, hk p]

/-- No command is refused. -/
theorem exec_ne_refused (i : Instr) (s : State) (r : Refusal) : exec i s ≠ .refused r := by
  cases i with
  | crcInit | crcUpdate _ => exact nofun
  | crcBuf | buildRead | buildFrame | parse => exact settle_ne_refused

/-- A read that reached its target is answered or faults. -/
theorem answerRead_ne_refused (o : Option Word) (s : State) (r : Refusal) : answerRead o s ≠ .refused r := by
  cases o <;> exact nofun

/-- A write that reached its target is not refused. -/
theorem writeTarget_ne_refused (s : State) (p : PortTarget) (v : Word) (r : Refusal) :
    s.writeTarget p v ≠ .refused r := by
  cases p with
  | cmd =>
    cases hd : decode v with
    | command i => exact fun h => exec_ne_refused i s r ((runCommandWord_command hd s).symm.trans h)
    | illegal y => exact fun h => nomatch (runCommandWord_illegal hd s).symm.trans h
  | _ => exact nofun

/-- Settles O11: only `admitAccess` refuses, and the address map is R52's. -/
theorem accessRefusedExactlyWhenNotAdmitted : Obligations.AccessRefusedExactlyWhenNotAdmitted := by
  intro s size off v rest ⟨_, hN, _⟩ he
  have admitted : (size = 4 ∧ off % 4 = 0 ∧ (portTarget s.cfg.bufSize off).isSome) ↔
      (size = 4 ∧ off % 4 = 0 ∧ mappedOffset s.cfg.bufSize off) :=
    and_congr_right fun _ => and_congr_right fun ho => portTarget_isSome_iff hN ho
  rw [← admitted]
  rcases he with he | he <;> rw [step_cons he]
  · exact admitAccess_refused_iff fun _ _ => answerRead_ne_refused _ _ _
  · exact admitAccess_refused_iff fun _ _ => writeTarget_ne_refused _ _ _ _

/-! ## Reads (R53) -/

section
variable {s : State} {rest : List PortEvent}

/-- A read of a target that holds a value gives the host that value and changes nothing else. -/
theorem step_read_value {off n : Nat} {p : PortTarget} (ho : off % 4 = 0)
    (hp : portTarget s.cfg.bufSize off = some p) (hv : s.readTarget p = some (BitVec.ofNat 32 n)) :
    step { s with events := .read 4 off :: rest } =
      .next { s with events := rest, replies := BitVec.ofNat 32 n :: s.replies } := by
  refine (step_read ho hp).trans ?_
  rw [hv]
  rfl

/-- A read of a cell that holds no value faults. -/
theorem step_read_none {off : Nat} {p : PortTarget} (ho : off % 4 = 0)
    (hp : portTarget s.cfg.bufSize off = some p) (hv : s.readTarget p = none) :
    step { s with events := .read 4 off :: rest } = .fault .unwrittenByte := by
  refine (step_read ho hp).trans ?_
  rw [hv]
  rfl

end

/-- A port word is the word of its value. -/
theorem word_eq_ofNat {w : Word} {n : Nat} (h : w.toNat = n) : w = BitVec.ofNat 32 n := by
  rw [← h, BitVec.ofNat_toNat, BitVec.setWidth_eq]

/-- The ERR_INFO word as the sum of its fields (10_state.md R35). -/
theorem errInfoWord_toNat (e : ErrInfo) : (errInfoWord e).toNat = e.code.toNat + 256 * e.known.toNat := by
  have hcode : (e.code.setWidth 32).toNat = e.code.toNat := BitVec.toNat_setWidth_of_le (by decide)
  rw [errInfoWord, toNat_or_eq_add 8 (toNat_field _ (by decide)) hcode (Nat.dvd_mul_left ..) e.code.isLt,
    BitVec.toNat_ofBool]
  ring

/-- The PARAM word with its flags as 0 or 1 (10_state.md R36). -/
theorem paramWord_eq_ofNat {c : Config} (hc : c.Legal) :
    paramWord c = BitVec.ofNat 32 (c.bufSize + 4096 * (decide (c.half = .exact)).toNat
      + 8192 * (decide (c.bufReset = .undef)).toNat + 65536 * c.remainSub + 16777216 * c.deviceId.toNat) := by
  have flag : ∀ (p : Prop) [Decidable p] (k : Nat), k * (decide p).toNat = if p then k else 0 := by
    intro p _ k
    by_cases hp : p <;> simp [hp]
  rw [flag, flag, Nat.mul_comm 65536, Nat.mul_comm 16777216]
  exact word_eq_ofNat (paramWord_toNat hc)

/-- A cell that holds `b` reads as the word of value `b`. -/
theorem readTarget_inBuf {s : State} {i : Nat} {b : Byte} (h : s.inCell i = some b) :
    s.readTarget (.inBuf i) = some (BitVec.ofNat 32 b.toNat) := by
  simp [State.readTarget, h]

/-- The same for an OUT_BUF cell. -/
theorem readTarget_outBuf {s : State} {i : Nat} {b : Byte} (h : s.outCell i = some b) :
    s.readTarget (.outBuf i) = some (BitVec.ofNat 32 b.toNat) := by
  simp [State.readTarget, h]

/-- Settles O12: each register and each window word is reached at its own offset, and `readTarget` gives the value
of its fields. -/
theorem readReturnsFields : Obligations.ReadReturnsFields := by
  intro s rest hs
  have ⟨_, hN, _⟩ := hs
  refine ⟨?_, fun i hi => ⟨fun b hb => ?_, fun hb => ?_, fun b hb => ?_, fun hb => ?_⟩⟩
  · have field : ∀ {w : Nat} (x : BitVec w), some (x.setWidth 32) = some (BitVec.ofNat 32 x.toNat) := fun x => by
      rw [BitVec.ofNat_toNat]
    simp only [List.forall_mem_cons]
    exact ⟨step_read_value (p := .cmd) rfl rfl rfl,
      step_read_value (p := .status) rfl rfl (field _),
      step_read_value (p := .crcAcc) rfl rfl (field _),
      step_read_value (p := .reqUnit) rfl rfl (field _),
      step_read_value (p := .reqFc) rfl rfl (field _),
      step_read_value (p := .reqAddr) rfl rfl (field _),
      step_read_value (p := .reqQty) rfl rfl (field _),
      step_read_value (p := .inLen) rfl rfl (field _),
      step_read_value (p := .outLen) rfl rfl (field _),
      step_read_value (p := .respUnit) rfl rfl (field _),
      step_read_value (p := .respFc) rfl rfl (field _),
      step_read_value (p := .respReg) rfl rfl (field _),
      step_read_value (p := .respDevid) rfl rfl (field _),
      step_read_value (p := .errInfo) rfl rfl (congrArg some (word_eq_ofNat (errInfoWord_toNat s.errInfo))),
      step_read_value (p := .param) rfl rfl (congrArg some (paramWord_eq_ofNat hs)), nofun⟩
  · exact step_read_value (by omega) (portTarget_inBuf hN hi) (readTarget_inBuf hb)
  · exact step_read_none (by omega) (portTarget_inBuf hN hi) (by simp [State.readTarget, hb])
  · exact step_read_value (by omega) (portTarget_outBuf hN hi) (readTarget_outBuf hb)
  · exact step_read_none (by omega) (portTarget_outBuf hN hi) (by simp [State.readTarget, hb])

/-! ## Writes (R54, R55) -/

/-- The field a write stores is v modulo the field's range. -/
theorem ofNat_mod_eq_lowField (v : Word) (w m : Nat) (hm : m = 2 ^ w) :
    BitVec.ofNat w (v.toNat % m) = v.extractLsb' 0 w := by
  apply BitVec.eq_of_toNat_eq
  simp [hm]

/-- IN_BUF after a write to one cell (20_memory.md R54). -/
theorem setInCell_inCell_self {s : State} (hw : s.inBuf.wf s.unlisted s.cfg.bufSize) (i : Nat) (b : Byte) :
    (s.setInCell i b).inCell i = some b :=
  Memory.readCell_writeCell_self hw i b

/-- A write to one cell leaves the others alone (20_memory.md R54). -/
theorem setInCell_inCell_of_ne (s : State) {i j : Nat} (h : j ≠ i) (b : Byte) :
    (s.setInCell i b).inCell j = s.inCell j :=
  Memory.readCell_writeCell_of_ne b h

/-- Settles O13: each operand register and each IN_BUF cell is reached at its own offset, and `writeTarget` stores the
low bits of v there. -/
theorem writeStoresField : Obligations.WriteStoresField := by
  refine ⟨fun s v rest => ?_, fun s i v rest ⟨_, hN, _⟩ ⟨hin, _⟩ hi => ?_⟩
  · rw [ofNat_mod_eq_lowField v 8 256 rfl, ofNat_mod_eq_lowField v 16 65536 rfl,
      ofNat_mod_eq_lowField v 9 512 rfl]
    exact ⟨step_write (p := .reqUnit) rfl rfl, step_write (p := .reqFc) rfl rfl, step_write (p := .reqAddr) rfl rfl,
      step_write (p := .reqQty) rfl rfl, step_write (p := .inLen) rfl rfl⟩
  · rw [ofNat_mod_eq_lowField v 8 256 rfl]
    exact ⟨_, step_write (by omega) (portTarget_inBuf hN hi), rfl, setInCell_inCell_self hin i _,
      fun j hj => setInCell_inCell_of_ne _ hj _⟩

/-- Settles O14: each read-only register and each OUT_BUF word is reached at its own offset, and `writeTarget` ignores
the value there. -/
theorem readOnlyWriteIgnored : Obligations.ReadOnlyWriteIgnored := by
  intro s v rest ⟨_, hN, _⟩
  refine ⟨?_, fun i hi => step_write (by omega) (portTarget_outBuf hN hi)⟩
  simp only [List.forall_mem_cons]
  exact ⟨step_write (p := .status) rfl rfl, step_write (p := .crcAcc) rfl rfl, step_write (p := .outLen) rfl rfl,
    step_write (p := .respUnit) rfl rfl, step_write (p := .respFc) rfl rfl, step_write (p := .respReg) rfl rfl,
    step_write (p := .respDevid) rfl rfl, step_write (p := .errInfo) rfl rfl, step_write (p := .param) rfl rfl,
    nofun⟩

/-! ## What a plain access leaves alone (R63) -/

/-- Settles O15, by the cases of a step: a plain access that answers a next state is a read or a store. -/
theorem plainAccessLeavesOutputs : Obligations.PlainAccessLeavesOutputs := by
  intro s t e rest he hplain h
  cases step_cases h with
  | idle hs _ => simp [hs] at he
  | read _ _ _ _ hs _ _ ht =>
    obtain ⟨-, rfl⟩ := List.cons.inj (hs.symm.trans he)
    simp [ht]
  | store _ _ _ _ hs _ hc ht =>
    obtain ⟨-, rfl⟩ := List.cons.inj (hs.symm.trans he)
    rw [writeTarget_eq_operands hc ht]
    simp
  | command _ _ _ hs | illegal _ _ _ hs =>
    obtain ⟨rfl, -⟩ := List.cons.inj (hs.symm.trans he)
    exact absurd rfl hplain
  | reset _ hs =>
    obtain ⟨rfl, -⟩ := List.cons.inj (hs.symm.trans he)
    exact hplain.elim

/-- A second write of the same byte to a cell changes nothing. -/
theorem Memory.writeCell_writeCell {d : Option Byte} {n i : Nat} {m : Memory} (hw : m.wf d n) (hi : i < n)
    (b : Byte) : (m.writeCell d i b).writeCell d i b = m.writeCell d i b := by
  have hw' : (m.writeCell d i b).wf d n := Memory.writeCell_wf hw hi b
  refine Memory.ext_of_wf (Memory.writeCell_wf hw' hi b) hw' fun j => ?_
  by_cases hj : j = i
  · rw [hj, Memory.readCell_writeCell_self hw', Memory.readCell_writeCell_self hw]
  · exact Memory.readCell_writeCell_of_ne b hj

/-- IN_BUF after the same write twice (20_memory.md R63). -/
theorem setInCell_setInCell {s : State} {n i : Nat} (hw : s.inBuf.wf s.unlisted n) (hi : i < n) (b : Byte) :
    (s.setInCell i b).setInCell i b = s.setInCell i b :=
  congrArg (fun m => { s with inBuf := m }) (Memory.writeCell_writeCell hw hi b)

/-- A second write of the same value to a target other than CMD changes nothing. -/
theorem writeTarget_idempotent {s t : State} {p : PortTarget} {v : Word} {n : Nat} (hc : p ≠ .cmd)
    (hn : ∀ i, p = .inBuf i → i < n) (hb : s.inBuf.wf s.unlisted n) (h : s.writeTarget p v = .next t) :
    t.writeTarget p v = .next t := by
  cases p with
  | cmd => exact absurd rfl hc
  | inBuf i =>
    obtain rfl := Host.Outcome.next.inj h
    exact congrArg Host.Outcome.next (setInCell_setInCell hb (hn i rfl) _)
  | _ => obtain rfl := Host.Outcome.next.inj h; rfl

/-- Settles O16: the second write reaches the same target, and stores what already stands there. -/
theorem operandWriteIdempotent : Obligations.OperandWriteIdempotent := by
  intro s t off v rest _ ⟨hin, _⟩ hoff he h
  rw [step_cons he] at h
  obtain ⟨-, ho, p, hp, hw⟩ := admitAccess_eq_next h
  have hc : p ≠ .cmd := by
    rintro rfl
    exact hoff (offset_of_cmd ho hp)
  have ht := writeTarget_eq_operands hc hw
  have hcfg : t.cfg = s.cfg := by rw [ht]; rfl
  have hev : t.events = rest := by rw [ht]; rfl
  refine (step_write ho (hcfg ▸ hp)).trans ?_
  rw [setEvents_self hev]
  exact writeTarget_idempotent (s := s.setEvents rest) hc (fun i hi => index_of_inBuf (hi ▸ hp)) hin hw

end Sys2Proof.Machine

/-! PROOFS of the statements about encoding (30_encoding.md): the fields of a command word, the decoder against the
encoder and the opcode table, illegal words, and the accesses of `copy.out`. -/

namespace Sys2Proof

/-! ## The fields of a word (R80) -/

section
variable (w w' : Word)

theorem opcField_eq_setWidth : opcField w = w.setWidth 8 := (BitVec.setWidth_eq_extractLsb' (by decide)).symm

theorem opcField_toNat : (opcField w).toNat = w.toNat % 256 := by simp [opcField]

theorem rsvdField_toNat : (rsvdField w).toNat = w.toNat / 65536 := by
  rw [rsvdField, BitVec.extractLsb'_toNat, Nat.shiftRight_eq_div_pow]
  have := w.isLt
  omega

theorem opcField_and : opcField (w &&& w') = opcField w &&& opcField w' := BitVec.extractLsb'_and

theorem imm8Field_and : imm8Field (w &&& w') = imm8Field w &&& imm8Field w' := BitVec.extractLsb'_and

theorem rsvdField_and : rsvdField (w &&& w') = rsvdField w &&& rsvdField w' := BitVec.extractLsb'_and

/-- The fields cover the word. -/
theorem fields_append : rsvdField w ++ (imm8Field w ++ opcField w) = w := by
  have hlow : imm8Field w ++ opcField w = w.extractLsb' 0 16 :=
    BitVec.extractLsb'_append_extractLsb'_eq_extractLsb' rfl
  rw [hlow]
  exact BitVec.extractLsb'_append_extractLsb' (w := 16) (len := 16)

variable {w w'}

/-- Words with the same fields are the same. -/
theorem word_ext (hr : rsvdField w = rsvdField w') (hi : imm8Field w = imm8Field w')
    (ho : opcField w = opcField w') : w = w' := by
  rw [← fields_append w, ← fields_append w', hr, hi, ho]

/-- The mask of the opcode table keeps RSVD and OPC and drops IMM8 (R82). -/
theorem tableMask_eq_iff :
    w &&& 0xFFFF00FF = w' &&& 0xFFFF00FF ↔ rsvdField w = rsvdField w' ∧ opcField w = opcField w' := by
  have hr (x : Word) : rsvdField (x &&& 0xFFFF00FF) = rsvdField x := (rsvdField_and ..).trans BitVec.and_allOnes
  have ho (x : Word) : opcField (x &&& 0xFFFF00FF) = opcField x := (opcField_and ..).trans BitVec.and_allOnes
  have hi (x : Word) : imm8Field (x &&& 0xFFFF00FF) = 0 := (imm8Field_and ..).trans BitVec.and_zero
  constructor
  · intro h
    rw [← hr w, ← ho w, h, hr, ho]
    exact ⟨rfl, rfl⟩
  · rintro ⟨h1, h2⟩
    exact word_ext (by rw [hr, hr, h1]) (by rw [hi, hi]) (by rw [ho, ho, h2])

end

/-! ## The decoder against the encoder (R81, R94) -/

/-- What `Laws.TableRow` shows of each command. -/
theorem tableRow (i : Instr) : Laws.TableRow.Statement i :=
  match i with
  | .crcInit => Laws.TableRow.crcInit
  | .crcUpdate imm8 => Laws.TableRow.crcUpdate imm8
  | .crcBuf => Laws.TableRow.crcBuf
  | .buildRead => Laws.TableRow.buildRead
  | .buildFrame => Laws.TableRow.buildFrame
  | .parse => Laws.TableRow.parse

/-- A word is its own number in the host's numbering. -/
theorem tableWord_toNat (w : Word) : tableWord 32 w.toNat = w := by
  rw [tableWord, Nat.mod_eq_of_lt w.isLt, BitVec.ofNat_toNat, BitVec.setWidth_eq]

/-- The decoder inverts the encoder. -/
theorem decode_encode (i : Instr) : decode (encode i) = .command i := by
  obtain ⟨-, -, hd, -⟩ := tableRow i
  rw [decodeTableWord, tableWord_toNat] at hd
  exact Machine.Decoded.toInstr?_eq_some.1 hd

/-- The OPC value of a command (R82). -/
def Instr.opcode (i : Instr) : Byte :=
  match i with
  | .crcInit => 0x01
  | .crcUpdate _ => 0x02
  | .crcBuf => 0x03
  | .buildRead => 0x10
  | .buildFrame => 0x11
  | .parse => 0x20

/-- The OPC values that name a command (R81). -/
def assignedOpcodes : List Byte := [0x01, 0x02, 0x03, 0x10, 0x11, 0x20]

section
variable {w : Word} {i : Instr}

/-- The case on OPC that yields a command is the one of its own OPC value, with its own operand. -/
theorem decodeOpcode_eq_command {opc imm8 : Byte} (h : decodeOpcode opc imm8 = .command i) :
    opc = i.opcode ∧ ∀ b, i = .crcUpdate b → imm8 = b := by
  unfold decodeOpcode at h
  split_ifs at h with h1 h2 h3 h4 h5 h6 <;> obtain rfl := Decoded.command.inj h <;> simp_all [Instr.opcode]

/-- The fields of every word that decodes to a command. -/
theorem decode_eq_command (h : decode w = .command i) :
    rsvdField w = 0 ∧ opcField w = i.opcode ∧ ∀ b, i = .crcUpdate b → imm8Field w = b := by
  unfold decode at h
  split_ifs at h with hr
  exact ⟨not_not.1 hr, decodeOpcode_eq_command h⟩

/-- The canonical word of a command without an operand has 0 in IMM8 (log entry 11). -/
theorem imm8Field_encode (hi : ∀ b, i ≠ .crcUpdate b) : imm8Field (encode i) = 0 := by
  cases i with
  | crcUpdate b => exact absurd rfl (hi b)
  | _ => decide

/-- OPC 0x02 is CRC_UPDATE (R82). -/
theorem opcode_eq_two_iff : i.opcode = 0x02 ↔ ∃ b, i = .crcUpdate b := by
  cases i <;> simp [Instr.opcode]

/-- CRC_UPDATE uses every field, so its word is canonical. -/
theorem encode_of_decode_crcUpdate {b : Byte} (h : decode w = .command (.crcUpdate b)) :
    encode (.crcUpdate b) = w := by
  obtain ⟨hr, ho, hb⟩ := decode_eq_command h
  obtain ⟨hr', ho', hb'⟩ := decode_eq_command (decode_encode (.crcUpdate b))
  exact word_ext (hr'.trans hr.symm) ((hb' b rfl).trans (hb b rfl).symm) (ho'.trans ho.symm)

/-- Clearing the don't-care IMM8 gives the canonical word of the other commands (R84). -/
theorem encode_of_decode_other (h : decode w = .command i) (hi : ∀ b, i ≠ .crcUpdate b) :
    encode i = w &&& 0x000000FF := by
  obtain ⟨-, ho, -⟩ := decode_eq_command h
  obtain ⟨hr', ho', -⟩ := decode_eq_command (decode_encode i)
  apply word_ext
  · rw [hr', rsvdField_and]
    exact BitVec.and_zero.symm
  · rw [imm8Field_encode hi, imm8Field_and]
    exact BitVec.and_zero.symm
  · rw [ho', ← ho, opcField_and]
    exact BitVec.and_allOnes.symm

/-- Settles O2: a word is its three fields, and the decoder pins the fields of every word that it accepts, the canonical
one among them. -/
theorem decodeEncodeAgree : Obligations.DecodeEncodeAgree := by
  refine ⟨decode_encode, fun w i h => ?_⟩
  obtain ⟨-, ho, -⟩ := decode_eq_command h
  rw [← opcField_eq_setWidth, ho]
  split_ifs with hi
  · obtain ⟨b, rfl⟩ := opcode_eq_two_iff.1 hi
    exact encode_of_decode_crcUpdate h
  · exact encode_of_decode_other h fun b hb => hi (opcode_eq_two_iff.2 ⟨b, hb⟩)

/-! ## The decoder against the opcode table (R82) -/

/-- R85: the two grounds on which a word is illegal. -/
theorem decode_eq_illegal_iff : (∃ y, decode w = .illegal y) ↔ rsvdField w ≠ 0 ∨ opcField w ∉ assignedOpcodes := by
  unfold decode decodeOpcode
  split_ifs <;> simp_all [assignedOpcodes]

/-- Every row matches on RSVD and OPC. -/
theorem selects_iff {r : OpcodeRow} (hr : r ∈ opcodeTable) :
    w &&& r.mask = r.matchBits ↔ rsvdField w = 0 ∧ opcField w = opcField r.matchBits := by
  have hrow : ∀ r ∈ opcodeTable,
      r.mask = 0xFFFF00FF ∧ r.matchBits &&& 0xFFFF00FF = r.matchBits ∧ rsvdField r.matchBits = 0 := by decide
  obtain ⟨hmask, hmatch, hrsvd⟩ := hrow r hr
  rw [hmask, ← hrsvd, ← tableMask_eq_iff, hmatch]

/-- A word that decodes to a command selects the row of its name only. -/
theorem selects_iff_mnemonic (h : decode w = .command i) {r : OpcodeRow} (hr : r ∈ opcodeTable) :
    w &&& r.mask = r.matchBits ↔ i.mnemonic = r.mnemonic := by
  obtain ⟨hrsvd, ho, -⟩ := decode_eq_command h
  obtain ⟨hrsvd', ho', -⟩ := decode_eq_command (decode_encode i)
  obtain ⟨hsel, -⟩ := tableRow i
  calc w &&& r.mask = r.matchBits ↔ encode i &&& r.mask = r.matchBits := by
        rw [selects_iff hr, selects_iff hr, hrsvd, hrsvd', ho, ho']
    _ ↔ r.mnemonic = i.mnemonic := decide_eq_decide.1 (hsel r hr)
    _ ↔ i.mnemonic = r.mnemonic := eq_comm

/-- An illegal word selects no row. -/
theorem not_selects_of_illegal {y : IllegalCmd} (h : decode w = .illegal y) {r : OpcodeRow} (hr : r ∈ opcodeTable) :
    w &&& r.mask ≠ r.matchBits := by
  have hassigned : ∀ r ∈ opcodeTable, opcField r.matchBits ∈ assignedOpcodes := by decide
  intro hsel
  obtain ⟨hrsvd, ho⟩ := (selects_iff hr).1 hsel
  rcases decode_eq_illegal_iff.1 ⟨y, h⟩ with h1 | h2
  · exact h1 hrsvd
  · exact h2 (ho ▸ hassigned r hr)

/-- Every command has a row. -/
theorem exists_row (i : Instr) : ∃ r ∈ opcodeTable, i.mnemonic = r.mnemonic := by
  cases i <;> simp [opcodeTable, Instr.mnemonic]

end

/-- Settles O3, by what the word decodes to: a command selects the row of its name, which exists, and an illegal word
selects none. -/
theorem decoderFollowsOpcodeTable : Obligations.DecoderFollowsOpcodeTable := by
  refine ⟨rfl, fun w => ?_⟩
  cases hd : decode w with
  | command i =>
    refine ⟨fun r hr => (selects_iff_mnemonic hd hr).trans ?_, ?_⟩
    · simp
    · obtain ⟨r, hr, hname⟩ := exists_row i
      exact ⟨nofun, fun hnone => absurd ((selects_iff_mnemonic hd hr).2 hname) (hnone r hr)⟩
  | illegal y =>
    have hnone : ∀ r ∈ opcodeTable, w &&& r.mask ≠ r.matchBits := fun _ hr => not_selects_of_illegal hd hr
    refine ⟨fun r hr => ?_, fun _ => hnone, fun _ => ⟨y, rfl⟩⟩
    simp [hnone r hr]

/-- IMM8 matters to CRC_UPDATE only (R84). -/
theorem decodeOpcode_imm8_irrelevant {opc : Byte} (h : opc ≠ 0x02) (imm8 imm8' : Byte) :
    decodeOpcode opc imm8 = decodeOpcode opc imm8' := by
  unfold decodeOpcode
  rw [if_neg h, if_neg h]

/-- Settles O4: the mask keeps RSVD and OPC, and no OPC but 0x02 reads IMM8. -/
theorem immediateIgnoredByOtherCommands : Obligations.ImmediateIgnoredByOtherCommands := by
  intro w w' hmask hopc
  obtain ⟨hr, ho⟩ := tableMask_eq_iff.1 hmask
  rw [← opcField_eq_setWidth] at hopc
  rw [decode, decode, ← hr, ← ho, decodeOpcode_imm8_irrelevant hopc]

/-- Settles O1, word by word. -/
theorem specExampleWordsDecode : Obligations.SpecExampleWordsDecode := by
  refine ⟨by decide, ?_⟩
  simp only [List.forall_mem_cons]
  exact ⟨⟨.unassignedOpcode, rfl⟩, ⟨.unassignedOpcode, rfl⟩, ⟨.unassignedOpcode, rfl⟩, ⟨.unassignedOpcode, rfl⟩,
    ⟨.reservedNonzero, rfl⟩, nofun⟩

namespace Machine

/-! ## Illegal command words (R85) -/

/-- R85's grounds, as numbers. -/
theorem illegal_of_toNat {w : Word}
    (h : w.toNat / 65536 ≠ 0 ∨ w.toNat % 256 ∉ [0x01, 0x02, 0x03, 0x10, 0x11, 0x20]) : ∃ y, decode w = .illegal y := by
  rw [← rsvdField_toNat, ← opcField_toNat] at h
  refine decode_eq_illegal_iff.2 (h.imp (fun hr h0 => hr ?_) fun ho hmem => ho ?_)
  · rw [h0]; rfl
  · exact List.mem_map_of_mem (f := BitVec.toNat) hmem

/-- Settles O5: the word is illegal, and the one write-back of an illegal word is STATUS. -/
theorem illegalCommandOnlySetsStatus : Obligations.IllegalCommandOnlySetsStatus := by
  intro s w rest he h
  obtain ⟨y, hd⟩ := illegal_of_toNat h
  calc step s = step (s.setEvents (.write 4 0x000 w :: rest)) := by rw [setEvents_self he]
    _ = runCommandWord w (s.setEvents rest) := step_write_cmd s w rest
    _ = .next { s with events := rest, status := 8 } := runCommandWord_illegal hd _

/-! ## `copy.out` (R95) -/

/-- Every access of the script notation is at a word (R94). -/
theorem offset_aligned (p : PortTarget) : p.offset % 4 = 0 := by
  cases p with
  | inBuf i | outBuf i => simp only [PortTarget.offset]; omega
  | _ => rfl

section
variable {s : State} {rest : List PortEvent} {p : PortTarget} (hp : portTarget s.cfg.bufSize p.offset = some p)
include hp

/-- A run that begins with `rd` of a target that holds a value. -/
theorem run_scriptRd {w : Word} (hv : s.readTarget p = some w) (k : Nat) :
    core.run (k + 1) (s.setEvents (scriptRd p :: rest)) = core.run k ((s.pushReply w).setEvents rest) :=
  run_succ ((step_read (offset_aligned p) hp).trans (by rw [hv]; rfl)) k

/-- A run that begins with a `wr` that answers a next state. -/
theorem run_scriptWr {v : Word} {t : State} (ht : (s.setEvents rest).writeTarget p v = .next t) (k : Nat) :
    core.run (k + 1) (s.setEvents (scriptWr p v :: rest)) = core.run k t :=
  run_succ ((step_write (offset_aligned p) hp).trans ht) k

end

/-- The state when the host has read the bytes `bs` and written them into IN_BUF from cell `i` on. -/
def State.copyCells (i : Nat) (bs : List Byte) (s : State) : State :=
  { s with inBuf := s.inBuf.writeCells s.unlisted i bs
           replies := (bs.map (·.setWidth 32)).reverse ++ s.replies }

/-- One byte is a reply and a cell written; the others follow. -/
theorem copyCells_cons (i : Nat) (b : Byte) (bs : List Byte) (s : State) :
    s.copyCells i (b :: bs) = ((s.pushReply (b.setWidth 32)).setInCell i b).copyCells (i + 1) bs := by
  simp [State.copyCells, State.setInCell, State.pushReply, State.unlisted]

/-- One byte of `copy.out`: the read of an OUT_BUF cell and the write of the word read. -/
theorem run_copyCell {s : State} {i : Nat} {b : Byte} (hN : s.cfg.bufSize ≤ 256) (hi : i < s.cfg.bufSize)
    (hb : s.outCell i = some b) (rest : List PortEvent) (k : Nat) :
    core.run (k + 2) (s.setEvents (scriptRd (.outBuf i) :: scriptWr (.inBuf i) (b.setWidth 32) :: rest))
      = core.run k (((s.pushReply (b.setWidth 32)).setInCell i b).setEvents rest) := by
  have hread : s.readTarget (.outBuf i) = some (b.setWidth 32) := by simp [State.readTarget, hb]
  have hlow : (b.setWidth 32).extractLsb' 0 8 = b := by
    rw [BitVec.extractLsb'_setWidth_of_le (by decide), BitVec.extractLsb'_eq_self]
  have hwrite : ((s.pushReply (b.setWidth 32)).setEvents rest).writeTarget (.inBuf i) (b.setWidth 32)
      = .next (((s.pushReply (b.setWidth 32)).setInCell i b).setEvents rest) := by
    rw [State.writeTarget, hlow]
    rfl
  calc
    _ = core.run (k + 1) ((s.pushReply _).setEvents (scriptWr (.inBuf i) (b.setWidth 32) :: rest)) :=
      run_scriptRd (portTarget_offset hN _ (by simp [hi])) hread (k + 1)
    _ = _ := run_scriptWr (s := s.pushReply _) (portTarget_offset hN _ (by simp [hi])) hwrite k

/-- The cells of `copy.out`, by induction on the bytes: no access of one byte touches an OUT_BUF cell. -/
theorem run_copyCells {s : State} {i : Nat} {bs : List Byte} (hN : s.cfg.bufSize ≤ 256)
    (hi : i + bs.length ≤ s.cfg.bufSize) (hbs : ∀ (j : Nat) (h : j < bs.length), s.outCell (i + j) = some bs[j])
    (rest : List PortEvent) (k : Nat) :
    core.run (k + 2 * bs.length) (s.setEvents (scriptCopyCells i (bs.map (·.setWidth 32)) ++ rest))
      = core.run k ((s.copyCells i bs).setEvents rest) := by
  induction bs generalizing s i with
  | nil => rfl
  | cons b bs ih =>
    rw [List.length_cons] at hi
    have hhead : s.outCell i = some b := hbs 0 (by simp)
    have htail : ∀ (j : Nat) (h : j < bs.length), s.outCell (i + 1 + j) = some bs[j] := fun j hj => by
      rw [show i + 1 + j = i + (j + 1) by omega]
      exact hbs (j + 1) (by simpa using hj)
    rw [copyCells_cons]
    exact (run_copyCell hN (by omega) hhead _ _).trans
      (ih (s := (s.pushReply (b.setWidth 32)).setInCell i b) hN (show i + 1 + bs.length ≤ s.cfg.bufSize by omega) htail)

/-- A word that names a length in 9 bits is stored whole. -/
theorem ofNat_toNat_lowField (v : BitVec 9) : (BitVec.ofNat 32 v.toNat).extractLsb' 0 9 = v := by
  rw [BitVec.ofNat_toNat, BitVec.extractLsb'_setWidth_of_le (by decide), BitVec.extractLsb'_eq_self]

/-- The whole of `copy.out`: the length read, the cells copied, the length written. -/
theorem run_copyOut {s : State} {f : List Byte} (hN : s.cfg.bufSize ≤ 256) (hfit : s.outLen.toNat ≤ s.cfg.bufSize)
    (hf : s.OutHolds f) (rest : List PortEvent) :
    core.run (2 * f.length + 2) (s.setEvents (scriptCopyOut (f.map (·.setWidth 32)) ++ rest))
      = .next ((((s.pushReply (s.outLen.setWidth 32)).copyCells 0 f).setInLen s.outLen).setEvents rest) := by
  obtain ⟨hlen, hcells⟩ := Memory.readCells_eq_some_iff.1 hf
  have hevents : scriptCopyOut (f.map (·.setWidth 32)) ++ rest =
      scriptRd .outLen :: (scriptCopyCells 0 (f.map (·.setWidth 32))
        ++ scriptWr .inLen (BitVec.ofNat 32 f.length) :: rest) := by
    simp [scriptCopyOut]
  let s₁ := s.pushReply (s.outLen.setWidth 32)
  have hwrite : ((s₁.copyCells 0 f).setEvents rest).writeTarget .inLen (BitVec.ofNat 32 f.length)
      = .next (((s₁.copyCells 0 f).setInLen s.outLen).setEvents rest) := by
    rw [State.writeTarget, hlen, ofNat_toNat_lowField]
    rfl
  rw [hevents, show 2 * f.length + 2 = 1 + 2 * f.length + 1 by omega]
  calc
    _ = core.run (1 + 2 * f.length) (s₁.setEvents _) := run_scriptRd (p := .outLen) rfl rfl _
    _ = core.run 1 ((s₁.copyCells 0 f).setEvents _) :=
      run_copyCells (s := s₁) hN (show 0 + f.length ≤ s.cfg.bufSize by omega) hcells _ 1
    _ = _ := run_scriptWr (p := .inLen) rfl hwrite 0

/-- Settles O52: the run of `copy.out`, and what a run of cells written at 0 reads as. -/
theorem copyOutMovesFrame : Obligations.CopyOutMovesFrame := by
  intro s f rest ⟨⟨_, hN, _⟩, ⟨hin, _⟩, ⟨_, _, _, hout, _⟩, _⟩ hf
  have hlen : f.length = s.outLen.toNat := (Memory.readCells_eq_some_iff.1 hf).1
  have hfit : s.outLen.toNat ≤ s.cfg.bufSize := by
    rcases hout with h0 | ⟨-, hle⟩
    · simp [h0]
    · exact hle
  have hread : (s.inBuf.writeCells s.unlisted 0 f).readCells s.unlisted 0 s.outLen.toNat = some f :=
    hlen ▸ Memory.readCells_writeCells hin (by omega)
  refine ⟨_, run_copyOut hN hfit hf rest, ⟨hfit, hread⟩, ?_, fun j hj => ?_⟩
  · rw [List.append_assoc]
    rfl
  · exact Memory.readCell_writeCells_outside (.inr (by omega))

end Machine

end Sys2Proof

/-! PROOFS of the statements about the CRC (40_crc.md): the engine in arithmetic, the check of a frame, the three CRC
commands, and the accesses of `crc.seq`. -/

namespace Sys2Proof.Machine

/-! ## The engine (R100 to R103) -/

/-- A step of an even accumulator is its shift (40_crc.md R100). -/
theorem crcStep_even {acc : U16} (h : acc.getLsbD 0 = false) : crcStep acc = acc >>> 1 := by
  rw [crcStep, h, if_neg Bool.false_ne_true]

/-- A step of an odd accumulator is its shift XOR the polynomial (40_crc.md R100). -/
theorem crcStep_odd {acc : U16} (h : acc.getLsbD 0 = true) : crcStep acc = (acc >>> 1) ^^^ crcPoly := by
  rw [crcStep, if_pos h]

/-- One bit step in arithmetic. -/
theorem crcStep_toNat (acc : U16) :
    (crcStep acc).toNat = (acc.toNat / 2) ^^^ (if acc.toNat % 2 = 1 then 0xA001 else 0) := by
  have hlow : acc.getLsbD 0 = decide (acc.toNat % 2 = 1) := Nat.testBit_zero _
  have hshift : (acc >>> 1).toNat = acc.toNat / 2 := BitVec.toNat_ushiftRight ..
  by_cases h : acc.toNat % 2 = 1
  · rw [if_pos h, crcStep_odd (hlow.trans (decide_eq_true h)), BitVec.toNat_xor, hshift]
    rfl
  · rw [if_neg h, crcStep_even (hlow.trans (decide_eq_false h)), hshift, Nat.xor_zero]

/-- Settles O18, by the two cases of the low bit. -/
theorem crcStepShiftsAndXors : Obligations.CrcStepShiftsAndXors :=
  ⟨crcStep_toNat, by decide⟩

theorem crcSteps_eq_iterate (n : Nat) (acc : U16) : crcSteps n acc = crcStep^[n] acc := by
  induction n generalizing acc with
  | zero => rfl
  | succ n ih => exact ih (crcStep acc)

/-- Settles O19: `crcSteps` is the iteration of one step. -/
theorem crcByteFoldsOneByte : Obligations.CrcByteFoldsOneByte := by
  refine ⟨fun acc b => ?_, by decide⟩
  rw [crcByte, crcSteps_eq_iterate, BitVec.ofNat_toNat]

/-- Settles O20, by the laws of a left fold. -/
theorem crc16FoldsFromInitial : Obligations.Crc16FoldsFromInitial :=
  ⟨crc16_nil, fun bs b => crc16_append bs [b], crc16_append, by decide⟩

/-! ## The check of a frame (R104) -/

/-- The CRC bytes of a frame as numbers. -/
theorem leBytes_eq_ofNat (v : U16) : leBytes v = [BitVec.ofNat 8 (v.toNat % 256), BitVec.ofNat 8 (v.toNat / 256)] := by
  have hlo : loByte v = BitVec.ofNat 8 (v.toNat % 256) := BitVec.eq_of_toNat_eq (by simp [loByte])
  have hhi : hiByte v = BitVec.ofNat 8 (v.toNat / 256) :=
    BitVec.eq_of_toNat_eq (by simp [hiByte, Nat.shiftRight_eq_div_pow])
  rw [leBytes, hlo, hhi]

/-- A list of at least two bytes ends in its last two. -/
theorem take_append_last_two {f : List Byte} (h : 2 ≤ f.length) :
    f = f.take (f.length - 2) ++ [f.getD (f.length - 2) 0, f.getD (f.length - 1) 0] := by
  have hdrop : f.drop (f.length - 2) = [f.getD (f.length - 2) 0, f.getD (f.length - 1) 0] := by
    rw [List.drop_eq_getElem_cons (by omega), List.drop_eq_getElem_cons (by omega), List.drop_of_length_le (by omega),
      List.getD_eq_getElem _ _ (by omega), List.getD_eq_getElem _ _ (by omega)]
    simp only [show f.length - 2 + 1 = f.length - 1 by omega]
  rw [← hdrop, List.take_append_drop]

/-- A frame passes the check exactly when it is bytes with their CRC appended. -/
theorem crcOk_iff {f : List Byte} : crcOk f = true ↔ ∃ bs, f = withCrc bs := by
  constructor
  · intro h
    obtain ⟨h2, hcrc⟩ := of_decide_eq_true h
    refine ⟨f.take (f.length - 2), ?_⟩
    rw [withCrc, hcrc, leBytes, loByte_joinBytes, hiByte_joinBytes]
    exact take_append_last_two h2
  · rintro ⟨bs, rfl⟩
    exact crcOk_withCrc bs

/-- Settles O21: the appended bytes are those of `withCrc`. -/
theorem crcOkExactlyWhenCrcAppended : Obligations.CrcOkExactlyWhenCrcAppended := by
  intro f
  simp only [← leBytes_eq_ofNat]
  exact crcOk_iff

/-! ## The CRC of a whole frame -/

/-- While the low bits are 0 the engine only shifts. -/
theorem crcSteps_eq_shift {n : Nat} {acc : U16} (h : ∀ i < n, acc.getLsbD i = false) :
    crcSteps n acc = acc >>> n := by
  induction n generalizing acc with
  | zero => rfl
  | succ n ih =>
    have hshift : ∀ i < n, (acc >>> 1).getLsbD i = false := fun i hi => by
      rw [BitVec.getLsbD_ushiftRight]
      exact h (1 + i) (by omega)
    rw [crcSteps, crcStep_even (h 0 (by omega)), ih hshift, ← BitVec.shiftRight_add, Nat.add_comm]

/-- Folding the accumulator's own low byte moves its high byte down. -/
theorem crcByte_loByte (v : U16) : crcByte v (loByte v) = (hiByte v).setWidth 16 := by
  have hlow : ∀ i < 8, (v ^^^ (loByte v).setWidth 16).getLsbD i = false := fun i hi => by
    simp [loByte, hi, show i < 16 by omega]
  rw [crcByte, crcSteps_eq_shift hlow]
  ext i hi
  have htop : v.getLsbD (8 + i) = true → i < 8 := fun h => by
    have := BitVec.lt_of_getLsbD h
    omega
  simpa [loByte, hiByte] using htop

/-- Folding a byte into an accumulator equal to it leaves 0. -/
theorem crcByte_self (b : Byte) : crcByte (b.setWidth 16) b = 0 := by
  rw [crcByte, BitVec.xor_self]
  rfl

/-- The CRC of bytes with their CRC appended (40_crc.md R108). -/
theorem crc16_withCrc (bs : List Byte) : crc16 (withCrc bs) = 0 := by
  rw [withCrc, crc16_append]
  calc crcByte (crcByte (crc16 bs) (loByte (crc16 bs))) (hiByte (crc16 bs))
    _ = crcByte ((hiByte (crc16 bs)).setWidth 16) (hiByte (crc16 bs)) := by rw [crcByte_loByte]
    _ = 0 := crcByte_self _

/-- Settles O22: the low CRC byte cancels the low half of the accumulator, and the high one what is left. -/
theorem crcOfWholeFrameIsZero : Obligations.CrcOfWholeFrameIsZero := by
  intro f h
  obtain ⟨bs, rfl⟩ := crcOk_iff.1 h
  exact crc16_withCrc bs

/-! ## The CRC commands (R106 to R108) -/

/-- A command without an operand is decoded from its canonical word, whatever stands in IMM8 (30_encoding.md R84). -/
theorem decode_of_tableMask {w : Word} {i : Instr} (hi : ∀ b, i ≠ .crcUpdate b)
    (h : w &&& 0xFFFF00FF = encode i) : decode w = .command i := by
  have henc : encode i &&& 0xFFFF00FF = encode i := by
    rw [← h, BitVec.and_assoc]
    rfl
  obtain ⟨hr, ho⟩ := tableMask_eq_iff.1 (h.trans henc.symm)
  obtain ⟨-, hopc, -⟩ := decode_eq_command (decode_encode i)
  have hne : opcField (encode i) ≠ 0x02 := fun h2 =>
    have ⟨b, hb⟩ := opcode_eq_two_iff.1 (hopc.symm.trans h2)
    hi b hb
  calc decode w = decode (encode i) := by rw [decode, decode, hr, ho, decodeOpcode_imm8_irrelevant hne]
    _ = .command i := decode_encode i

/-- CRC_INIT's write-back. -/
theorem exec_crcInit (s : State) : exec .crcInit s = .next ((s.setCrcAcc crcInitial).setStatus 0) := rfl

/-- CRC_UPDATE's write-back. -/
theorem exec_crcUpdate (b : Byte) (s : State) :
    exec (.crcUpdate b) s = .next ((s.setCrcAcc (crcByte s.crcAcc b)).setStatus 0) := rfl

/-- CRC_BUF's write-back when IN_BUF holds a frame. -/
theorem exec_crcBuf {s : State} {f : List Byte} (h : s.HoldsFrame f) :
    exec .crcBuf s = .next ((s.setCrcAcc (crc16 f)).setStatus 0) := by
  have ⟨hN, _⟩ := h
  rw [exec, execCrcBuf, Run.require_pos hN, HoldsFrame.inBytes h]
  rfl

/-- CRC_BUF's write-back when L > N. -/
theorem exec_crcBuf_long {s : State} (h : s.cfg.bufSize < s.frameLen) : exec .crcBuf s = .next (s.setStatus 7) := by
  rw [exec, execCrcBuf, Run.require_neg (Nat.not_le.2 h)]
  rfl

/-- Settles O23: its words are those of the table row, and its write-back is CRC_ACC and STATUS. -/
theorem crcInitSetsAccumulator : Obligations.CrcInitSetsAccumulator :=
  ⟨⟨rfl, fun _ h => decode_of_tableMask nofun h⟩, exec_crcInit⟩

/-- Settles O24: the word is the canonical one, and its write-back is CRC_ACC and STATUS. -/
theorem crcUpdateFoldsImmediate : Obligations.CrcUpdateFoldsImmediate :=
  fun imm8 s => ⟨decode_encode (.crcUpdate imm8), exec_crcUpdate imm8 s⟩

/-- Settles O25: its words are those of the table row, and its check separates the two write-backs. -/
theorem crcBufComputesCrc16 : Obligations.CrcBufComputesCrc16 :=
  ⟨⟨rfl, fun _ h => decode_of_tableMask nofun h⟩, fun _ _ h => exec_crcBuf h, fun _ h => exec_crcBuf_long h⟩

/-! ## `crc.seq` (R109, 30_encoding.md R95) -/

/-- A run that begins with the canonical word of a command that answers a next state. -/
theorem run_scriptCmd {s t : State} {rest : List PortEvent} {i : Instr}
    (h : exec i (s.setEvents rest) = .next t) (k : Nat) :
    core.run (k + 1) (s.setEvents (scriptCmd i :: rest)) = core.run k t :=
  run_scriptWr (p := .cmd) rfl ((runCommandWord_command (decode_encode i) _).trans h) k

/-- The updates of `crc.seq` fold their bytes into the accumulator, by induction on the bytes. -/
theorem run_crcUpdates (s : State) (acc : U16) (bs : List Byte) (rest : List PortEvent) :
    core.run bs.length
        (((s.setCrcAcc acc).setStatus 0).setEvents (bs.map (fun b => scriptCmd (.crcUpdate b)) ++ rest))
      = .next (((s.setCrcAcc (bs.foldl crcByte acc)).setStatus 0).setEvents rest) := by
  induction bs generalizing acc with
  | nil => rfl
  | cons b bs ih => exact (run_scriptCmd (exec_crcUpdate b _) _).trans (ih (crcByte acc b))

/-- Settles O26: CRC_INIT sets the accumulator to the initial value of `crc16`, and the updates fold the bytes. -/
theorem streamingCrcMatchesCrc16 : Obligations.StreamingCrcMatchesCrc16 :=
  fun s bs rest => (run_scriptCmd (exec_crcInit _) _).trans (run_crcUpdates s crcInitial bs rest)

end Sys2Proof.Machine

/-! PROOFS of the statements about the frame encoder (41_build.md): the layout of a frame in numbers, the frame that a
build leaves in OUT_BUF, and the two build commands. -/

namespace Sys2Proof.Machine

/-! ## The layout of a frame (30_encoding.md R87, R88, R92, R93) -/

/-- A 16-bit field of a frame as numbers: the CRC's two bytes in the other order. -/
theorem beBytes_eq_ofNat (v : U16) : beBytes v = [BitVec.ofNat 8 (v.toNat / 256), BitVec.ofNat 8 (v.toNat % 256)] :=
  congrArg List.reverse (leBytes_eq_ofNat v)

/-- A frame with its CRC as numbers. -/
theorem withCrc_eq_ofNat (bs : List Byte) :
    withCrc bs = bs ++ [BitVec.ofNat 8 ((crc16 bs).toNat % 256), BitVec.ofNat 8 ((crc16 bs).toNat / 256)] := by
  rw [withCrc, leBytes_eq_ofNat]

/-- The six bytes of a read request before its CRC, as numbers. -/
theorem readRequestHead_eq_ofNat (unit fc : Byte) (addr qty : U16) :
    readRequestHead unit fc addr qty =
      [ unit, fc, BitVec.ofNat 8 (addr.toNat / 256), BitVec.ofNat 8 (addr.toNat % 256),
        BitVec.ofNat 8 (qty.toNat / 256), BitVec.ofNat 8 (qty.toNat % 256) ] := by
  rw [readRequestHead, beBytes_eq_ofNat, beBytes_eq_ofNat]
  rfl

/-! ## The frame in OUT_BUF -/

section
variable {s : State} (hcfg : s.cfg.Legal) (hbuf : s.BuffersWf)
include hcfg hbuf

/-- A frame that fits the buffer is held there: its length fits OUT_LEN, since N is at most 256. -/
theorem emitFrame_outHolds {frame : List Byte} (hfit : frame.length ≤ s.cfg.bufSize) :
    (s.emitFrame frame).OutHolds frame := by
  obtain ⟨-, h256, -⟩ := hcfg
  obtain ⟨-, hout⟩ := hbuf
  obtain ⟨hlen, -⟩ := emitFrame_frame s (frame := frame) (by omega)
  rw [State.OutHolds, hlen]
  exact Memory.readCells_writeCells hout (by omega)

/-- What a successful build leaves: the frame with its CRC, its length, STATUS = OK, and all else as it was. -/
theorem emitFrame_withCrc {head : List Byte} (hfit : head.length + 2 ≤ s.cfg.bufSize) :
    s.emitFrame (withCrc head) = { s with status := 0, outLen := BitVec.ofNat 9 (head.length + 2),
                                          outBuf := (s.emitFrame (withCrc head)).outBuf }
    ∧ (s.emitFrame (withCrc head)).OutHolds
        (head ++ [BitVec.ofNat 8 ((crc16 head).toNat % 256), BitVec.ofNat 8 ((crc16 head).toNat / 256)])
    ∧ ∀ j, head.length + 2 ≤ j → (s.emitFrame (withCrc head)).outCell j = s.outCell j := by
  have ⟨_, h256, _⟩ := hcfg
  have hlen : (withCrc head).length = head.length + 2 := length_withCrc head
  have hholds : (s.emitFrame (withCrc head)).OutHolds (withCrc head) := emitFrame_outHolds hcfg hbuf (hlen ▸ hfit)
  obtain ⟨-, hcells⟩ := emitFrame_frame s (frame := withCrc head) (by omega)
  refine ⟨?_, withCrc_eq_ofNat head ▸ hholds, fun j hj => hcells j (hlen ▸ hj)⟩
  rw [emitFrame_eq, hlen]

end

/-! ## The function codes of BUILD_READ (R121) -/

theorem readFc_iff {f : Byte} : readFc f = true ↔ f = 1 ∨ f = 2 ∨ f = 3 ∨ f = 4 := decide_eq_true_iff

/-- The accepted function codes as a range of numbers. -/
theorem readFc_iff_range {f : Byte} : readFc f = true ↔ 1 ≤ f.toNat ∧ f.toNat ≤ 4 := by
  rw [readFc_iff]
  bv_omega

/-! ## The build commands (R120, R122) -/

section
variable {s : State}

/-- BUILD_READ's write-back with an accepted function code. -/
theorem exec_buildRead (h : readFc s.reqFc = true) : exec .buildRead s = .next (s.emitFrame s.readRequest) := by
  rw [exec, execBuildRead, Run.require_pos h]
  rfl

/-- BUILD_READ's write-back with any other function code. -/
theorem exec_buildRead_badFc (h : ¬readFc s.reqFc = true) :
    exec .buildRead s = .next ((s.setStatus 4).setOutLen 0) := by
  rw [exec, execBuildRead, Run.require_neg h]
  rfl

/-- BUILD_FRAME's write-back when IN_BUF holds a payload whose frame fits OUT_BUF. -/
theorem exec_buildFrame {p : List Byte} (hN : s.frameLen + 4 ≤ s.cfg.bufSize) (hp : s.HoldsFrame p) :
    exec .buildFrame s = .next (s.emitFrame (s.genericFrame p)) := by
  rw [exec, execBuildFrame, Run.require_pos hN, HoldsFrame.inBytes hp]
  rfl

/-- BUILD_FRAME's write-back when the frame would not fit OUT_BUF. -/
theorem exec_buildFrame_long (h : s.cfg.bufSize < s.frameLen + 4) :
    exec .buildFrame s = .next ((s.setStatus 7).setOutLen 0) := by
  rw [exec, execBuildFrame, Run.require_neg (Nat.not_le.2 h)]
  rfl

end

/-- Settles O28: its words are those of the table row, an accepted function code emits the six bytes with their CRC,
and any other clears OUT_LEN. -/
theorem buildReadEmitsRequestFrame : Obligations.BuildReadEmitsRequestFrame := by
  refine ⟨⟨rfl, fun _ h => decode_of_tableMask nofun h⟩, fun s hcfg hbuf hfc => ?_,
    fun s hfc => exec_buildRead_badFc (mt readFc_iff.1 hfc)⟩
  have ⟨h8, _⟩ := hcfg
  exact ⟨_, _, exec_buildRead (readFc_iff.2 hfc), readRequestHead_eq_ofNat _ _ _ _, emitFrame_withCrc hcfg hbuf h8⟩

/-- Settles O29, by the two cases of its check. -/
theorem buildReadAcceptsReadCodesOnly : Obligations.BuildReadAcceptsReadCodesOnly := by
  intro s
  rw [← readFc_iff_range]
  by_cases hfc : readFc s.reqFc = true
  · exact ⟨_, exec_buildRead hfc, .inl rfl, iff_of_true rfl hfc⟩
  · exact ⟨_, exec_buildRead_badFc hfc, .inr rfl, iff_of_false (by simp) hfc⟩

/-- Settles O30: its words are those of the table row, and its check separates the frame from LEN_ERROR. -/
theorem buildFrameEmitsGenericFrame : Obligations.BuildFrameEmitsGenericFrame := by
  refine ⟨⟨rfl, fun _ h => decode_of_tableMask nofun h⟩, fun s p hcfg hbuf hN hp => ?_,
    fun _ h => exec_buildFrame_long h⟩
  have hlen : ([s.reqUnit, s.reqFc] ++ p).length + 2 = s.inLen.toNat + 4 := by
    simp [HoldsFrame.length hp, State.frameLen]
  have hemit := emitFrame_withCrc hcfg hbuf (head := [s.reqUnit, s.reqFc] ++ p) (hlen ▸ hN)
  rw [hlen] at hemit
  exact ⟨_, _, exec_buildFrame hN hp, rfl, hemit⟩

/-- Settles O31, by the ways a build answers: one that succeeds emits bytes with their CRC appended, and they fit. -/
theorem builtFrameSatisfiesCrcOk : Obligations.BuiltFrameSatisfiesCrcOk := by
  intro s t i hcfg hbuf hi h hst
  have ⟨h8, _⟩ := hcfg
  cases exec_cases h with
  | buildRead _ ht =>
    subst ht
    exact ⟨s.readRequest, emitFrame_outHolds hcfg hbuf (by simpa using h8), crcOk_withCrc _⟩
  | buildFrame p hN hp ht =>
    subst ht
    have hl : p.length = s.frameLen := (inBytes_eq_done.1 hp).1
    exact ⟨s.genericFrame p, emitFrame_outHolds hcfg hbuf (by simpa [hl] using hN), crcOk_withCrc _⟩
  | buildReadBadFc _ ht | buildFrameLong _ ht => subst ht; simp at hst
  | crcInit | crcUpdate | crcBuf | crcBufLong | parse | parseError => simp at hi

end Sys2Proof.Machine

/-! PROOFS of the statements about PARSE (42_parse.md): what it answers on a frame as a function of the frame alone,
the branches of that function, and the corruptions that the CRC detects. -/

namespace Sys2Proof.Machine

/-! ## What PARSE answers on a frame -/

/-- Bit decode of a frame (R150 to R154): bit 7 of the last payload byte scanned. -/
def bitResult (f : List Byte) : Except CommandError U16 :=
  if min (frameAt f 2).toNat (f.length - 5) = 0 then .error .noValue
  else .ok (BitVec.ofNat 16 ((frameAt f (2 + min (frameAt f 2).toNat (f.length - 5))).toNat / 128))

/-- Word decode of a frame by a loop of `w` rounds (R158 to R160): the last word read. -/
def wordResult (w : Nat) (f : List Byte) : Except CommandError U16 :=
  if w = 0 then .error .noValue
  else if f.length ≤ 2 * w + 2 then .error .frameMalformed
  else .ok (frameWordAt f (2 * w + 1))

/-- Steps 2 and 3 on a frame (R144, R147, R148). -/
def decodeResult (w : Nat) (f : List Byte) : Except CommandError U16 :=
  if 0x80 ≤ (frameAt f 1).toNat then
    .error (if 3 ≤ f.length then .exceptionResponse (frameAt f 2) else .frameMalformed)
  else if frameAt f 1 = 1 ∨ frameAt f 1 = 2 then bitResult f
  else if frameAt f 1 = 3 ∨ frameAt f 1 = 4 then wordResult w f
  else .error (.unsupportedFc (frameAt f 1))

/-- What a successful PARSE of a frame reports (R161). -/
def frameParsed (f : List Byte) (reg : U16) : Parsed := ⟨frameAt f 0, frameAt f 1, reg⟩

/-- PARSE on a frame that fits the buffer (R143, R164). -/
def frameResult (w : Nat) (f : List Byte) : Except CommandError Parsed :=
  if f.length < 2 then .error .frameMalformed
  else if crcOk f = true then (decodeResult w f).map (frameParsed f)
  else .error .crcMismatch

/-- The rounds of the word decode's loop on a frame (R155, R156). -/
def frameWords (c : Config) (f : List Byte) : Nat :=
  wordsRead c.half (min ((f.length : Int) - c.remainSub) (frameAt f 2).toNat)

/-- The write-back of a PARSE that met no unwritten cell (R161, 60_exceptions.md R184). -/
def parseWriteBack (r : Except CommandError Parsed) (s : State) : State :=
  match r with
  | .ok p => parseOkState p.unit p.fc p.reg s
  | .error e => parseErrorState e.status.bits e.errInfo.code e.errInfo.known s

/-- Work that met no unwritten cell. -/
def Run.ofExcept {α : Type} (r : Except CommandError α) : Run α :=
  match r with
  | .ok a => .done a
  | .error e => .raised e

@[simp] theorem Run.ofExcept_ok {α : Type} (a : α) : Run.ofExcept (.ok a) = .done a := rfl
@[simp] theorem Run.ofExcept_error {α : Type} (e : CommandError) :
    Run.ofExcept (.error e : Except CommandError α) = .raised e := rfl

/-! ## Frames whose CRC is right -/

theorem length_of_crcOk {f : List Byte} (hcrc : crcOk f = true) : 2 ≤ f.length := by
  obtain ⟨bs, rfl⟩ := crcOk_iff.1 hcrc
  simp

/-- Two bytes that pass the check are the CRC of no bytes (R143). -/
theorem eq_of_crcOk_of_length_two {f : List Byte} (hcrc : crcOk f = true) (h2 : f.length = 2) : f = [0xFF, 0xFF] := by
  obtain ⟨bs, rfl⟩ := crcOk_iff.1 hcrc
  obtain rfl : bs = [] := List.eq_nil_of_length_eq_zero (by simpa using h2)
  rfl

/-- A valid frame without an exception flag has a byte 2, which step 3 reads. -/
theorem three_le_length_of_crcOk {f : List Byte} (hcrc : crcOk f = true) (hflag : ¬0x80 ≤ (frameAt f 1).toNat) :
    3 ≤ f.length := by
  have := length_of_crcOk hcrc
  by_contra hlt
  obtain rfl := eq_of_crcOk_of_length_two hcrc (by omega)
  exact hflag (by decide)

/-- The function codes that step 3 decodes carry no exception flag. -/
theorem not_exception_of_decoded_code {b : Byte} (hb : b = 1 ∨ b = 2 ∨ b = 3 ∨ b = 4) : ¬0x80 ≤ b.toNat := by
  obtain rfl | rfl | rfl | rfl := hb <;> decide

theorem not_bit_code_of_word_code {b : Byte} (hb : b = 3 ∨ b = 4) : ¬(b = 1 ∨ b = 2) := by
  obtain rfl | rfl := hb <;> decide

/-! ## The decoders on a frame -/

/-- Bit 7 of a byte as a comparison. -/
theorem getLsbD_seven (x : Byte) : x.getLsbD 7 = decide (0x80 ≤ x.toNat) :=
  BitVec.msb_eq_decide x

/-- Bit 7 of a byte as a register value. -/
theorem ofBool_getLsbD_seven (x : Byte) :
    (BitVec.ofBool (x.getLsbD 7)).setWidth 16 = BitVec.ofNat 16 (x.toNat / 128) := by
  have hx := x.isLt
  rw [getLsbD_seven]
  by_cases h : 0x80 ≤ x.toNat
  · rw [decide_eq_true h, show x.toNat / 128 = 1 by omega]
    rfl
  · rw [decide_eq_false h, show x.toNat / 128 = 0 by omega]
    rfl

/-- The last bit of a scan is bit 7 of its last byte (R153). -/
theorem terminalElement_bits (bs : List Byte) (x : Byte) :
    terminalElement (((bs ++ [x]).flatMap bitsLsbFirst).map fun b => (BitVec.ofBool b).setWidth 16)
      = .done (BitVec.ofNat 16 (x.toNat / 128)) := by
  rw [← ofBool_getLsbD_seven]
  simp [terminalElement, bitsLsbFirst, List.range_succ]

/-- The last word of a loop of `w + 1` rounds is the one at its last offset (R159). -/
theorem terminalElement_words (g : Nat → U16) (w : Nat) :
    terminalElement ((List.range' 0 (w + 1)).map g) = .done (g w) := by
  simp [terminalElement, List.range'_concat]

section
variable {s : State} {f : List Byte} (hf : s.inBytes s.frameLen = .done f)
include hf

theorem effectiveCount_toNat : (s.effectiveCount (frameAt f 2)).toNat = min (frameAt f 2).toNat (f.length - 5) := by
  obtain ⟨hl, -⟩ := inBytes_eq_done.1 hf
  rw [State.effectiveCount]
  omega

theorem wordsRead_wordLimit : wordsRead s.cfg.half (s.wordLimit (frameAt f 2)) = frameWords s.cfg f := by
  obtain ⟨hl, -⟩ := inBytes_eq_done.1 hf
  rw [State.wordLimit, frameWords, hl]

/-- The last bit of the scan of a frame. -/
theorem bitElements_terminal :
    (s.bitElements (frameAt f 2)).andThen terminalElement = .ofExcept (bitResult f) := by
  rw [State.bitElements, effectiveCount_toNat hf, bitResult]
  by_cases h0 : min (frameAt f 2).toNat (f.length - 5) = 0
  · rw [if_pos h0, h0]
    rfl
  · obtain ⟨n, hn⟩ := Nat.exists_eq_succ_of_ne_zero h0
    have hlast : 3 + n < f.length := by omega
    have hscanned : (f.drop 3).take (n + 1) = (f.drop 3).take n ++ [frameAt f (2 + (n + 1))] := by
      rw [List.take_add_one, List.getElem?_drop, List.getElem?_eq_getElem hlast, frameAt,
        List.getD_eq_getElem _ _ (by omega)]
      simp [show 2 + (n + 1) = 3 + n by omega]
    rw [if_neg h0, hn, scanBits_of_bytes hf (by omega)]
    simp only [Run.andThen_done, Nat.add_zero, Nat.succ_eq_add_one, hscanned]
    exact terminalElement_bits _ _

/-- The last word of the loop over a frame. -/
theorem wordElements_terminal :
    (s.wordElements (frameAt f 2)).andThen terminalElement = .ofExcept (wordResult (frameWords s.cfg f) f) := by
  have hfuel : wordsRead s.cfg.half (s.wordLimit (frameAt f 2)) ≤ 0 + (s.wordLimit (frameAt f 2) + 8).toNat :=
    (Nat.zero_add _).symm ▸ wordsRead_le_fuel _ _
  have hscan := scanWords_of_bytes hf _ hfuel
  rw [wordsRead_wordLimit hf] at hscan
  rw [State.wordElements, wordResult]
  refine (congrArg (·.andThen terminalElement) hscan).trans ?_
  cases frameWords s.cfg f with
  | zero => simp
  | succ w =>
    by_cases hin : f.length ≤ 2 * (w + 1) + 2
    · simp [hin]
    · rw [if_neg (fun hc => hin hc.2), if_neg w.succ_ne_zero, if_neg hin]
      simp [terminalElement_words, show 3 + 2 * w = 2 * (w + 1) + 1 by omega]

/-- Steps 2 and 3 on a valid frame are `decodeResult`. -/
theorem decodeFrame_of_bytes (hcrc : crcOk f = true) :
    s.decodeFrame (frameAt f 1) = .ofExcept (decodeResult (frameWords s.cfg f) f) := by
  unfold State.decodeFrame State.decodePayload decodeResult
  rw [getLsbD_seven]
  simp only [decide_eq_true_eq]
  by_cases hflag : 0x80 ≤ (frameAt f 1).toNat
  · rw [if_pos hflag, if_pos hflag]
    by_cases h3 : 3 ≤ f.length
    · have h2 : s.frameByte 2 = .done (frameAt f 2) := frameByte_done hf h3
      rw [h2, if_pos h3]
      rfl
    · have h2 : s.frameByte 2 = .raised .frameMalformed := frameByte_raised hf (i := 2) (by omega)
      rw [h2, if_neg h3]
      rfl
  · have h2 : s.frameByte 2 = .done (frameAt f 2) := frameByte_done hf (three_le_length_of_crcOk hcrc hflag)
    rw [if_neg hflag, if_neg hflag, h2]
    split_ifs
    · exact bitElements_terminal hf
    · exact wordElements_terminal hf
    · rfl

end

section
variable {s : State} {f : List Byte} (h : s.HoldsFrame f)
include h

/-- PARSE's work on a frame is a function of the frame and the configuration (R162). -/
theorem parseFrame_of_holds : s.parseFrame = .ofExcept (frameResult (frameWords s.cfg f) f) := by
  have hf := HoldsFrame.inBytes h
  obtain ⟨hN, -⟩ := h
  rw [State.parseFrame, Run.require_pos hN, checkCrc_of_bytes hf, frameResult]
  split_ifs with h2 hcrc
  · rfl
  · have hfc : s.frameByte 1 = .done (frameAt f 1) := frameByte_done hf (i := 1) (by omega)
    have hunit : s.frameByte 0 = .done (frameAt f 0) := frameByte_done hf (i := 0) (by omega)
    rw [Run.andThen_done, hfc, Run.andThen_done, decodeFrame_of_bytes hf hcrc, hunit]
    cases decodeResult (frameWords s.cfg f) f <;> rfl
  · rfl

/-- What PARSE answers on a frame. -/
theorem exec_parse_of_holds : exec .parse s = .next (parseWriteBack (frameResult (frameWords s.cfg f) f) s) := by
  rw [exec, execParse, parseFrame_of_holds h]
  cases frameResult (frameWords s.cfg f) f <;> rfl

theorem exec_parse_badCrc (h2 : 2 ≤ f.length) (hcrc : ¬crcOk f = true) :
    exec .parse s = .next (parseErrorState 1 0 false s) := by
  rw [exec_parse_of_holds h, frameResult, if_neg (by omega), if_neg hcrc]
  rfl

section
variable (hcrc : crcOk f = true)
include hcrc

/-- On a valid frame PARSE answers what the decoders give. -/
theorem exec_parse_of_crcOk : exec .parse s =
    .next (parseWriteBack ((decodeResult (frameWords s.cfg f) f).map (frameParsed f)) s) := by
  rw [exec_parse_of_holds h, frameResult, if_neg (by have := length_of_crcOk hcrc; omega), if_pos hcrc]

theorem exec_parse_exception (hflag : 0x80 ≤ (frameAt f 1).toNat) : exec .parse s =
    .next (parseWriteBack
      (.error (if 3 ≤ f.length then .exceptionResponse (frameAt f 2) else .frameMalformed)) s) := by
  rw [exec_parse_of_crcOk h hcrc, decodeResult, if_pos hflag]
  rfl

theorem exec_parse_bits (hfc : frameAt f 1 = 1 ∨ frameAt f 1 = 2) : exec .parse s =
    .next (parseWriteBack ((bitResult f).map (frameParsed f)) s) := by
  have hflag := not_exception_of_decoded_code (b := frameAt f 1) (by tauto)
  rw [exec_parse_of_crcOk h hcrc, decodeResult, if_neg hflag, if_pos hfc]

theorem exec_parse_words (hfc : frameAt f 1 = 3 ∨ frameAt f 1 = 4) : exec .parse s =
    .next (parseWriteBack ((wordResult (frameWords s.cfg f) f).map (frameParsed f)) s) := by
  have hflag := not_exception_of_decoded_code (b := frameAt f 1) (by tauto)
  rw [exec_parse_of_crcOk h hcrc, decodeResult, if_neg hflag,
    if_neg (not_bit_code_of_word_code hfc), if_pos hfc]

theorem exec_parse_unsupported
    (hfc : (frameAt f 1).toNat = 0 ∨ 5 ≤ (frameAt f 1).toNat ∧ (frameAt f 1).toNat ≤ 0x7F) :
    exec .parse s = .next (parseErrorState 3 (frameAt f 1) false s) := by
  rw [exec_parse_of_crcOk h hcrc, decodeResult, if_neg (by omega), if_neg (by bv_omega), if_neg (by bv_omega)]
  rfl

end

end

/-! ## The CRC check (R141, R143) -/

/-- Settles O32: the length check comes before every read. -/
theorem parseRejectsLongFrames : Obligations.ParseRejectsLongFrames := by
  intro s hN
  rw [exec, execParse, State.parseFrame, State.frameLen, Run.require_neg (Nat.not_le.2 hN)]
  rfl

theorem joinBytes_toNat (hi lo : Byte) : (joinBytes hi lo).toNat = 256 * hi.toNat + lo.toNat := by
  rw [joinBytes, BitVec.toNat_append, ← Nat.shiftLeft_add_eq_or_of_lt lo.isLt, Nat.shiftLeft_eq]
  omega

/-- Settles O33, by the cases of the CRC check; a valid frame of two bytes is FF FF, an exception without its code. -/
theorem parseChecksCrcFirst : Obligations.ParseChecksCrcFirst := by
  intro s f h
  refine ⟨fun hshort => ?_, fun h2 hne => ?_, fun h2 hcrc => ?_⟩
  · rw [exec_parse_of_holds h, frameResult, if_pos hshort]
    rfl
  · refine exec_parse_badCrc h h2 fun hcrc => hne ?_
    obtain ⟨-, hcalc⟩ := of_decide_eq_true hcrc
    rw [hcalc, joinBytes_toNat]
  · have hff := eq_of_crcOk_of_length_two hcrc h2
    have hflag : 0x80 ≤ (frameAt f 1).toNat := by
      rw [hff]
      decide
    refine ⟨hff, ?_⟩
    rw [exec_parse_exception h hcrc hflag, if_neg (by omega)]
    rfl

/-- The decoders never report CRC_MISMATCH. -/
theorem decodeResult_ne_crcMismatch (w : Nat) (f : List Byte) : decodeResult w f ≠ .error .crcMismatch := by
  unfold decodeResult bitResult wordResult
  split_ifs <;> simp

theorem frameResult_eq_crcMismatch {w : Nat} {f : List Byte} (h2 : 2 ≤ f.length) :
    frameResult w f = .error .crcMismatch ↔ crcOk f = false := by
  rw [frameResult, if_neg (by omega)]
  by_cases hcrc : crcOk f = true
  · have hne := decodeResult_ne_crcMismatch w f
    rw [if_pos hcrc]
    cases hr : decodeResult w f with
    | ok reg => simp [Except.map, hcrc]
    | error e => simpa [Except.map, hcrc, hr] using hne
  · simp [hcrc]

theorem parseWriteBack_status_eq_one {r : Except CommandError Parsed} {s : State} :
    (parseWriteBack r s).status = 1 ↔ r = .error .crcMismatch := by
  cases r with
  | ok p => simp [parseWriteBack, parseOkState]
  | error e => cases e <;> simp [parseWriteBack, parseErrorState, CommandError.status, StatusCode.bits]

/-- Settles O34: STATUS = 1 is the write-back of CRC_MISMATCH alone, which the decoders do not report. -/
theorem crcMismatchExactlyOnBadCrc : Obligations.CrcMismatchExactlyOnBadCrc := fun _ _ h h2 =>
  ⟨_, exec_parse_of_holds h, parseWriteBack_status_eq_one.trans (frameResult_eq_crcMismatch h2)⟩

/-! ## Corruption of one byte -/

/-- A step moves the low bit to bit 15, the top bit of the polynomial. -/
theorem crcStep_getLsbD_fifteen (acc : U16) : (crcStep acc).getLsbD 15 = acc.getLsbD 0 := by
  cases h : acc.getLsbD 0 with
  | false => simp [crcStep_even h]
  | true => simp [crcStep_odd h, crcPoly]

/-- A step can be undone: bit 15 tells whether the polynomial was XORed in. -/
theorem crcStep_injective : Function.Injective crcStep := by
  intro a b hab
  have hlow : a.getLsbD 0 = b.getLsbD 0 := by
    rw [← crcStep_getLsbD_fifteen, hab, crcStep_getLsbD_fifteen]
  have hshift : a >>> 1 = b >>> 1 := by
    cases hb : b.getLsbD 0 with
    | false => rwa [crcStep_even (hlow.trans hb), crcStep_even hb] at hab
    | true => rwa [crcStep_odd (hlow.trans hb), crcStep_odd hb, BitVec.xor_left_inj] at hab
  apply BitVec.eq_of_getLsbD_eq
  intro i hi
  cases i with
  | zero => exact hlow
  | succ i => simpa [Nat.add_comm] using congrArg (·.getLsbD i) hshift

theorem crcSteps_injective (n : Nat) : Function.Injective (crcSteps n) :=
  (funext (crcSteps_eq_iterate n)) ▸ crcStep_injective.iterate n

/-- Different accumulators stay different over the same byte. -/
theorem crcByte_left_injective (b : Byte) : Function.Injective (crcByte · b) := fun _ _ h =>
  (BitVec.xor_left_inj _).1 (crcSteps_injective 8 h)

/-- Different bytes make the accumulator differ. -/
theorem crcByte_right_injective (acc : U16) : Function.Injective (crcByte acc) := by
  intro b c h
  have hw := (BitVec.xor_right_inj _).1 (crcSteps_injective 8 h)
  simpa using congrArg (BitVec.setWidth 8) hw

theorem foldl_crcByte_injective (bs : List Byte) : Function.Injective (bs.foldl crcByte) := by
  induction bs with
  | nil => exact fun _ _ h => h
  | cons b bs ih => exact ih.comp (crcByte_left_injective b)

/-- The CRC of a frame with one byte replaced. -/
theorem crc16_set {f : List Byte} {k : Nat} (hk : k < f.length) (b : Byte) :
    crc16 (f.set k b) = (f.drop (k + 1)).foldl crcByte (crcByte (crc16 (f.take k)) b) := by
  rw [List.set_eq_take_append_cons_drop, if_pos hk, crc16_append, List.foldl_cons]

/-- Replacing one byte changes the CRC. -/
theorem crc16_set_injective {f : List Byte} {k : Nat} (hk : k < f.length) :
    Function.Injective fun b => crc16 (f.set k b) := fun b c h => by
  simp only [crc16_set hk] at h
  exact crcByte_right_injective _ (foldl_crcByte_injective _ h)

theorem set_frameAt {f : List Byte} {k : Nat} (hk : k < f.length) : f.set k (frameAt f k) = f := by
  rw [frameAt, List.getD_eq_getElem _ _ hk, List.set_getElem_self]

/-- Settles O35: two valid frames have the same CRC, 0, so they do not differ in one byte. -/
theorem singleByteCorruptionDetected : Obligations.SingleByteCorruptionDetected := by
  intro s f k b hcrc hk hb h
  refine exec_parse_badCrc h (by simpa using length_of_crcOk hcrc) fun hcrc' => hb ?_
  refine crc16_set_injective hk ?_
  simp only [set_frameAt hk, crcOfWholeFrameIsZero _ hcrc, crcOfWholeFrameIsZero _ hcrc']

/-! ## Errors of a valid frame (R144 to R148) -/

/-- Settles O36, by the two lengths: with byte 2 it is the code, and without it the frame is malformed. -/
theorem parseReportsExceptionResponse : Obligations.ParseReportsExceptionResponse := by
  intro s f h hcrc hflag
  rw [exec_parse_exception h hcrc hflag]
  refine ⟨fun h3 => ?_, fun h2 => ?_⟩
  · rw [if_pos h3]
    rfl
  · rw [if_neg (by omega)]
    rfl

/-- Settles O37: such a function code has no flag and no decoder. -/
theorem parseReportsUnsupportedCode : Obligations.ParseReportsUnsupportedCode :=
  fun _ _ h hcrc hfc => exec_parse_unsupported h hcrc hfc

/-- Settles O46: the text of code 0x02, and the text without KNOWN. -/
theorem hostTextOfKnownSource : Obligations.HostTextOfKnownSource := by
  refine ⟨?_, fun c => ?_⟩
  · rw [hostDescription, if_pos rfl, if_pos rfl]
  · rw [hostDescription, if_neg Bool.false_ne_true]

/-! ## The bit decode (R150 to R154) -/

/-- Settles O38: the scan is empty exactly when d = 0 or L is at most 5. -/
theorem parseBitDecodeReportsTerminalBit : Obligations.ParseBitDecodeReportsTerminalBit := by
  intro s f h hcrc hfc
  rw [exec_parse_bits h hcrc hfc, bitResult]
  refine ⟨fun hempty => ?_, fun hd hlen => ?_⟩
  · rw [if_pos (by omega)]
    rfl
  · rw [if_neg (by omega)]
    rfl

/-! ## The word decode (R155 to R160) -/

/-- Settles O39, by the three cases of the loop. -/
theorem parseWordDecodeReportsTerminalWord : Obligations.ParseWordDecodeReportsTerminalWord := by
  intro s f w h hcrc hfc hw
  obtain rfl : w = frameWords s.cfg f := hw
  rw [exec_parse_words h hcrc hfc, wordResult]
  refine ⟨fun h0 => ?_, fun h0 hout => ?_, fun h0 hin => ?_⟩
  · rw [if_pos h0]
    rfl
  · rw [if_neg h0, if_pos hout]
    rfl
  · rw [if_neg h0, if_neg (by omega)]
    rfl

/-- The word at register `j` of a list of registers, whatever follows. -/
theorem frameWordAt_registers {regs : List U16} {j : Nat} (hj : j < regs.length) (tail : List Byte) :
    frameWordAt (regs.flatMap beBytes ++ tail) (2 * j) = regs[j] := by
  induction regs generalizing j with
  | nil => simp at hj
  | cons r regs ih =>
    cases j with
    | zero => exact joinBytes_hi_lo r
    | succ j => exact ih (by simpa using hj)

/-- The bytes of a well-formed response before its CRC (30_encoding.md R89). -/
def responseHead (u fc : Byte) (regs : List U16) : List Byte :=
  [u, fc, BitVec.ofNat 8 (2 * regs.length)] ++ regs.flatMap beBytes

theorem length_responseHead (u fc : Byte) (regs : List U16) :
    (responseHead u fc regs).length = 2 * regs.length + 3 := by
  simp [responseHead, beBytes, Nat.mul_comm]

/-- On a well-formed response m is twice the number of registers, and both readings of "÷ 2" read half of them and one
more. -/
theorem frameWords_response {c : Config} (hc : c.remainSub = 5) (u fc : Byte) {regs : List U16}
    (hn : regs.length ≤ 127) : frameWords c (withCrc (responseHead u fc regs)) = regs.length / 2 + 1 := by
  have hd : (frameAt (withCrc (responseHead u fc regs)) 2).toNat = 2 * regs.length :=
    Nat.mod_eq_of_lt (by omega)
  rw [frameWords, hd, length_withCrc, length_responseHead, hc]
  cases c.half <;> simp only [wordsRead] <;> omega

/-- Settles O40: the loop stops at the middle register, and with none at the CRC. -/
theorem wellFormedWordResponseReportsMiddleRegister : Obligations.WellFormedWordResponseReportsMiddleRegister := by
  intro s u fc regs hc hfc hn h
  change s.HoldsFrame (withCrc (responseHead u fc regs)) at h
  have hword : exec .parse s = .next (parseOkState u fc
      (frameWordAt (withCrc (responseHead u fc regs)) (2 * (regs.length / 2 + 1) + 1)) s) := by
    rw [exec_parse_words h (crcOk_withCrc _) hfc, frameWords_response hc u fc hn, wordResult,
      if_neg (Nat.succ_ne_zero _), if_neg (by rw [length_withCrc, length_responseHead]; omega)]
    rfl
  refine ⟨fun hmid => ?_, fun hnil => ?_⟩
  · rw [hword, ← frameWordAt_registers hmid (leBytes (crc16 (responseHead u fc regs)))]
    rfl
  · subst hnil
    exact hword

/-- Settles O41: with m = min(L - 5, d) the loop reads m / 4 + 1 words, the last of which ends before byte L. -/
theorem floorWordReadsStayInFrame : Obligations.FloorWordReadsStayInFrame := by
  intro s f h hcrc hfloor hsub hfc
  have hw : frameWords s.cfg f = (min ((f.length : Int) - 5) (frameAt f 2).toNat / 2 / 2 + 1).toNat := by
    rw [frameWords, hfloor, hsub]
    rfl
  rw [exec_parse_words h hcrc hfc, wordResult]
  by_cases h0 : frameWords s.cfg f = 0
  · rw [if_pos h0]
    exact ⟨_, rfl, .inr rfl, iff_of_true rfl (by omega)⟩
  · rw [if_neg h0, if_neg (by omega)]
    exact ⟨_, rfl, .inl rfl, iff_of_false (by simp [parseWriteBack, Except.map, parseOkState]) (by omega)⟩

/-- The two readings of "÷ 2" read the same words when m is even (R157). -/
theorem wordsRead_exact_of_even {m : Int} (hm : m % 2 = 0) : wordsRead .exact m = wordsRead .floor m := by
  simp only [wordsRead]
  omega

/-- PARSE sees P_HALF through the number of words read alone. -/
theorem exec_parse_half {s : State} {f : List Byte} (h : s.HoldsFrame f) (x : HalfMode) :
    exec .parse { s with cfg := { s.cfg with half := x } } =
      .next { parseWriteBack (frameResult (frameWords { s.cfg with half := x } f) f) s with
              cfg := { s.cfg with half := x } } := by
  rw [exec_parse_of_holds (s := { s with cfg := { s.cfg with half := x } }) h]
  cases frameResult (frameWords { s.cfg with half := x } f) f <;> rfl

/-- Settles O42: the two readings read the same words. -/
theorem halfReadingsAgreeOnEvenLimit : Obligations.HalfReadingsAgreeOnEvenLimit := by
  intro s t f h hm ht
  have hwords : frameWords { s.cfg with half := .exact } f = frameWords { s.cfg with half := .floor } f :=
    wordsRead_exact_of_even hm
  obtain rfl := Host.Outcome.next.inj (ht.symm.trans (exec_parse_half h .floor))
  rw [exec_parse_half h, hwords]

/-! ## What an OK says, and what PARSE depends on -/

/-- One more cell of IN_BUF. -/
theorem inBytes_succ {s : State} {n : Nat} {bs : List Byte} {b : Byte} (hbs : s.inBytes n = .done bs)
    (hb : s.inCell n = some b) : s.inBytes (n + 1) = .done (bs ++ [b]) := by
  obtain ⟨rfl, hcells⟩ := inBytes_eq_done.1 hbs
  refine inBytes_eq_done.2 ⟨List.length_append, fun j hj => ?_⟩
  obtain hlt | rfl := Nat.lt_or_eq_of_le (show j ≤ bs.length by simpa [Nat.lt_succ_iff] using hj)
  · rw [hcells j hlt, List.getElem_append_left hlt]
  · rw [hb, List.getElem_concat_length rfl]

/-- `byte(i)` that is read lies in the frame and holds a value. -/
theorem frameByte_eq_done {s : State} {i : Int} {b : Byte} (h : s.frameByte i = .done b) :
    (0 ≤ i ∧ i < s.frameLen) ∧ s.inCell i.toNat = some b := by
  obtain ⟨hin, hcell⟩ := Run.require_eq_done.1 h
  exact ⟨hin, Run.ofCell_eq_done.1 hcell⟩

/-- The CRC check passes only over a frame all of whose cells hold a value. -/
theorem inBytes_of_checkCrc {s : State} (h : s.checkCrc = .done ()) : ∃ f, s.inBytes s.frameLen = .done f := by
  obtain ⟨recv, hpair, h⟩ := Run.andThen_eq_done.1 h
  obtain ⟨body, hbody, -⟩ := Run.andThen_eq_done.1 h
  obtain ⟨hi, hhi, hpair⟩ := Run.andThen_eq_done.1 hpair
  obtain ⟨lo, hlo, -⟩ := Run.andThen_eq_done.1 hpair
  obtain ⟨-, hcellHi⟩ := frameByte_eq_done hhi
  obtain ⟨⟨h2, -⟩, hcellLo⟩ := frameByte_eq_done hlo
  rw [show ((s.frameLen : Int) - 2).toNat = s.frameLen - 2 by omega] at hcellLo
  rw [show ((s.frameLen : Int) - 1).toNat = s.frameLen - 2 + 1 by omega] at hcellHi
  refine ⟨body ++ [lo] ++ [hi], ?_⟩
  rw [show s.frameLen = s.frameLen - 2 + 1 + 1 by omega]
  exact inBytes_succ (inBytes_succ hbody hcellLo) hcellHi

/-- No error is reported as OK. -/
theorem CommandError.status_ne_ok (e : CommandError) : e.status.bits ≠ 0 := by
  cases e <;> simp [CommandError.status, StatusCode.bits]

/-- The CRC check passes only over a frame whose CRC is right. -/
theorem crcOk_of_checkCrc {s : State} {f : List Byte} (hf : s.inBytes s.frameLen = .done f)
    (h : s.checkCrc = .done ()) : 2 ≤ f.length ∧ crcOk f = true := by
  rw [checkCrc_of_bytes hf] at h
  split_ifs at h with h2 hcrc
  exact ⟨Nat.le_of_not_lt h2, hcrc⟩

/-- Settles O43: every check and read of a successful parse passed over the bytes of the frame. -/
theorem parseOkOnlyOnValidFrame : Obligations.ParseOkOnlyOnValidFrame := by
  intro s t ht hst
  cases exec_cases ht with
  | parseError e _ ht => subst ht; exact absurd hst e.status_ne_ok
  | parse p hp ht =>
    have hfields := parseFrame_done_fields hp
    obtain ⟨hN, hcheck, hfc, -, hunit⟩ := parseFrame_eq_done.1 hp
    obtain ⟨f, hf⟩ := inBytes_of_checkCrc hcheck
    obtain ⟨h2, hcrc⟩ := crcOk_of_checkCrc hf hcheck
    have hfc' : p.fc = frameAt f 1 := Run.done.inj (hfc.symm.trans (frameByte_done hf (i := 1) (by omega)))
    have hunit' : p.unit = frameAt f 0 := Run.done.inj (hunit.symm.trans (frameByte_done hf (i := 0) (by omega)))
    rw [hfc', hunit'] at ht
    rw [hfc'] at hfields
    refine ⟨f, p.reg, ⟨hN, Run.ofCell_eq_done.1 hf⟩, hcrc, by tauto, ht, fun hbit => ?_⟩
    obtain ⟨-, hle⟩ | hword := hfields
    · bv_omega
    · exact absurd hbit (not_bit_code_of_word_code hword)

/-- Settles O45: the frame and the configuration determine the write-back. -/
theorem parseDependsOnFrameOnly : Obligations.ParseDependsOnFrameOnly := by
  intro s₁ s₂ f hcfg h₁ h₂
  refine ⟨_, _, exec_parse_of_holds h₁, exec_parse_of_holds h₂, ?_⟩
  rw [hcfg]
  cases frameResult (frameWords s₂.cfg f) f with
  | ok p => exact ⟨rfl, rfl, rfl, rfl, congrArg Config.deviceId hcfg, rfl⟩
  | error e => exact ⟨rfl, rfl, rfl, rfl, rfl, rfl⟩

end Sys2Proof.Machine

/-! PROOFS of the statements about exceptions (60_exceptions.md): which commands fault and when, that none does under
ZERO, the error write-back of PARSE, and the block between accesses. -/

namespace Sys2Proof.Machine

/-! ## Cells that hold no value (R194) -/

theorem Run.require_eq_unwritten {α : Type} {p : Prop} [Decidable p] {e : CommandError} {k : Run α} :
    Run.require p e k = .unwritten ↔ p ∧ k = .unwritten := by
  by_cases h : p <;> simp [Run.require, h]

theorem Run.ofExcept_ne_unwritten {α : Type} (r : Except CommandError α) : Run.ofExcept r ≠ .unwritten := by
  cases r <;> exact nofun

section
variable {s : State}

/-- Reading IN_BUF[0..n-1] fails exactly on a cell that holds no value. -/
theorem inBytes_eq_unwritten {n : Nat} : s.inBytes n = .unwritten ↔ ∃ j < n, s.inCell j = none := by
  constructor
  · intro h
    induction n with
    | zero => cases h
    | succ n ih =>
      cases hbs : s.inBytes n with
      | done bs =>
        cases hb : s.inCell n with
        | none => exact ⟨n, n.lt_succ_self, hb⟩
        | some b => cases (inBytes_succ hbs hb).symm.trans h
      | raised e => exact absurd hbs inBytes_ne_raised
      | unwritten =>
        obtain ⟨j, hj, hnone⟩ := ih hbs
        exact ⟨j, Nat.lt_succ_of_lt hj, hnone⟩
  · rintro ⟨j, hj, hnone⟩
    cases hbs : s.inBytes n with
    | done bs =>
      obtain ⟨rfl, hcells⟩ := inBytes_eq_done.1 hbs
      cases hnone.symm.trans (hcells j hj)
    | raised e => exact absurd hbs inBytes_ne_raised
    | unwritten => rfl

/-- The CRC check consumes every cell of the frame: the last byte, the one before it, then the rest, so it never raises
over an unwritten cell (log entry 7). -/
theorem checkCrc_of_unwritten (h : ∃ j < s.frameLen, s.inCell j = none) : s.checkCrc = .unwritten := by
  obtain ⟨j, hj, hnone⟩ := h
  have hlast : s.frameByte (s.frameLen - 1 : Int) = .ofCell (s.inCell (s.frameLen - 1)) := by
    rw [frameByte_inside (by omega), show ((s.frameLen : Int) - 1).toNat = s.frameLen - 1 by omega]
  rw [State.checkCrc, State.framePair, hlast]
  cases hhi : s.inCell (s.frameLen - 1) with
  | none => rfl
  | some hi =>
    have hj1 : j ≠ s.frameLen - 1 := by
      rintro rfl
      cases hnone.symm.trans hhi
    have hprev : s.frameByte (s.frameLen - 2 : Int) = .ofCell (s.inCell (s.frameLen - 2)) := by
      rw [frameByte_inside (by omega), show ((s.frameLen : Int) - 2).toNat = s.frameLen - 2 by omega]
    rw [hprev]
    cases hlo : s.inCell (s.frameLen - 2) with
    | none => rfl
    | some lo =>
      have hj2 : j ≠ s.frameLen - 2 := by
        rintro rfl
        cases hnone.symm.trans hlo
      have hbody : s.inBytes (s.frameLen - 2) = .unwritten := inBytes_eq_unwritten.2 ⟨j, by omega, hnone⟩
      rw [hbody]
      rfl

/-- The ways IN_BUF can stand when L ≤ N: it holds a frame, or a cell of IN_BUF[0..L-1] holds no value. -/
theorem holdsFrame_or_unwritten (hN : s.frameLen ≤ s.cfg.bufSize) :
    (∃ f, s.HoldsFrame f) ∨ ∃ j < s.frameLen, s.inCell j = none := by
  cases hf : s.inBytes s.frameLen with
  | done f => exact .inl ⟨f, hN, Run.ofCell_eq_done.1 hf⟩
  | raised e => exact absurd hf inBytes_ne_raised
  | unwritten => exact .inr (inBytes_eq_unwritten.1 hf)

/-- PARSE's work meets an unwritten cell exactly when the frame fits and has one. -/
theorem parseFrame_eq_unwritten :
    s.parseFrame = .unwritten ↔ s.frameLen ≤ s.cfg.bufSize ∧ ∃ j < s.frameLen, s.inCell j = none := by
  constructor
  · intro h
    obtain ⟨hN, -⟩ := Run.require_eq_unwritten.1 h
    obtain ⟨f, hf⟩ | hcell := holdsFrame_or_unwritten hN
    · exact absurd ((parseFrame_of_holds hf).symm.trans h) (Run.ofExcept_ne_unwritten _)
    · exact ⟨hN, hcell⟩
  · rintro ⟨hN, hcell⟩
    rw [State.parseFrame, Run.require_pos hN, checkCrc_of_unwritten hcell]
    rfl

/-! ## Which commands fault -/

variable {x : Fault}

theorem exec_crcBuf_eq_fault :
    exec .crcBuf s = .fault x ↔ s.frameLen ≤ s.cfg.bufSize ∧ ∃ j < s.frameLen, s.inCell j = none := by
  rw [exec, execCrcBuf, settle_eq_fault, Run.require_eq_unwritten, inBytes_eq_unwritten]

theorem exec_buildFrame_eq_fault :
    exec .buildFrame s = .fault x ↔ s.frameLen + 4 ≤ s.cfg.bufSize ∧ ∃ j < s.frameLen, s.inCell j = none := by
  rw [exec, execBuildFrame, settle_eq_fault, Run.require_eq_unwritten, inBytes_eq_unwritten]

theorem exec_parse_eq_fault :
    exec .parse s = .fault x ↔ s.frameLen ≤ s.cfg.bufSize ∧ ∃ j < s.frameLen, s.inCell j = none := by
  rw [exec, execParse, settle_eq_fault, parseFrame_eq_unwritten]

/-- BUILD_READ reads registers only. -/
theorem exec_buildRead_ne_fault : exec .buildRead s ≠ .fault x := by
  rw [exec, execBuildRead, Ne, settle_eq_fault, Run.require_eq_unwritten]
  exact fun ⟨_, h⟩ => nomatch h

/-- A command that faults consumed a cell of IN_BUF that holds no value. -/
theorem unwritten_of_exec_fault {i : Instr} (h : exec i s = .fault x) : ∃ j, s.inCell j = none := by
  cases i with
  | crcInit | crcUpdate _ => cases h
  | buildRead => exact absurd h exec_buildRead_ne_fault
  | crcBuf => obtain ⟨-, j, -, hj⟩ := exec_crcBuf_eq_fault.1 h; exact ⟨j, hj⟩
  | buildFrame => obtain ⟨-, j, -, hj⟩ := exec_buildFrame_eq_fault.1 h; exact ⟨j, hj⟩
  | parse => obtain ⟨-, j, -, hj⟩ := exec_parse_eq_fault.1 h; exact ⟨j, hj⟩

end

/-- Settles O51: the commands without operand bytes have no read that can fail, and the others read the whole of
IN_BUF[0..L-1] once their length check has passed. -/
theorem commandsFaultExactlyOnUnwrittenCells : Obligations.CommandsFaultExactlyOnUnwrittenCells := by
  refine fun s x => ⟨?_, exec_crcBuf_eq_fault, exec_buildFrame_eq_fault, exec_parse_eq_fault⟩
  rintro i (rfl | ⟨b, rfl⟩ | rfl)
  · exact nofun
  · exact nofun
  · exact exec_buildRead_ne_fault

/-! ## Which steps fault -/

section
variable {s : State} {x : Fault}

/-- An access that faults reached a target that faults. -/
theorem admitAccess_eq_fault {size off : Nat} {k : PortTarget → Host.Outcome State Fault Refusal}
    (h : admitAccess size off s k = .fault x) : ∃ p, k p = .fault x := by
  unfold admitAccess at h
  split_ifs at h
  cases hp : portTarget s.cfg.bufSize off with
  | none => simp [hp] at h
  | some p => exact ⟨p, by simpa [hp] using h⟩

/-- Only a buffer cell can have no value to read. -/
theorem readTarget_eq_none {p : PortTarget} (h : s.readTarget p = none) :
    ∃ j, s.inCell j = none ∨ s.outCell j = none := by
  cases p with
  | inBuf i => exact ⟨i, .inl (Option.map_eq_none_iff.1 h)⟩
  | outBuf i => exact ⟨i, .inr (Option.map_eq_none_iff.1 h)⟩
  | _ => cases h

theorem answerRead_eq_fault {o : Option Word} (h : answerRead o s = .fault x) : o = none := by
  cases o with
  | none => rfl
  | some w => cases h

/-- A write that faults ran a command that consumed a cell of IN_BUF that holds no value. -/
theorem unwritten_of_writeTarget_fault {p : PortTarget} {v : Word} (h : s.writeTarget p v = .fault x) :
    ∃ j, s.inCell j = none := by
  cases p with
  | cmd =>
    cases hd : decode v with
    | command i => exact unwritten_of_exec_fault ((runCommandWord_command hd s).symm.trans h)
    | illegal y => cases (runCommandWord_illegal hd s).symm.trans h
  | _ => cases h

/-- A step that faults consumed a buffer cell that holds no value. -/
theorem unwritten_of_step_fault (h : step s = .fault x) : ∃ j, s.inCell j = none ∨ s.outCell j = none := by
  cases he : s.events with
  | nil => cases (step_nil he).symm.trans h
  | cons e rest =>
    rw [step_cons he] at h
    cases e with
    | reset => cases h
    | read size off =>
      obtain ⟨p, hp⟩ := admitAccess_eq_fault h
      exact readTarget_eq_none (s := s.setEvents rest) (answerRead_eq_fault hp)
    | write size off v =>
      obtain ⟨p, hp⟩ := admitAccess_eq_fault h
      obtain ⟨j, hj⟩ := unwritten_of_writeTarget_fault hp
      exact ⟨j, .inl hj⟩

/-- Under ZERO every buffer cell holds a value (00_scope.md R9). -/
theorem readCell_ne_none_of_zero (h : s.cfg.bufReset = .zero) (m : Memory) (j : Nat) :
    m.readCell s.unlisted j ≠ none := by
  obtain ⟨b, hb⟩ := Memory.readCell_zero m j
  rw [State.unlisted, h, hb]
  exact nofun

end

/-- Settles O50: a fault needs a cell that holds no value, and no command is refused. -/
theorem commandsTotalUnderZero : Obligations.CommandsTotalUnderZero := by
  refine ⟨fun i s hzero => ?_, fun s x hzero h => ?_⟩
  · cases h : exec i s with
    | next t => exact ⟨t, rfl⟩
    | fault x =>
      obtain ⟨j, hj⟩ := unwritten_of_exec_fault h
      exact absurd hj (readCell_ne_none_of_zero hzero _ _)
    | refused r => exact absurd h (exec_ne_refused i s r)
  · obtain ⟨j, hj | hj⟩ := unwritten_of_step_fault h <;> exact readCell_ne_none_of_zero hzero _ _ hj

/-! ## The error write-back of PARSE (R183, R184) -/

/-- The decoders report no error that belongs to another command. -/
theorem decodeResult_ne_error {e : CommandError} (he : e = .invalidBuildParams ∨ e = .illegalCmd) (w : Nat)
    (f : List Byte) : decodeResult w f ≠ .error e := by
  unfold decodeResult bitResult wordResult
  obtain rfl | rfl := he <;> split_ifs <;> simp

theorem frameResult_ne_error {e : CommandError} (he : e = .invalidBuildParams ∨ e = .illegalCmd) (w : Nat)
    (f : List Byte) : frameResult w f ≠ .error e := by
  have hdec := decodeResult_ne_error he w f
  unfold frameResult
  split_ifs
  · obtain rfl | rfl := he <;> simp
  · cases hr : decodeResult w f with
    | ok reg => exact nofun
    | error e' => exact fun h => hdec (hr.trans (congrArg _ (Except.error.inj h)))
  · obtain rfl | rfl := he <;> simp

/-- PARSE raises no error that belongs to another command: it raises LEN_ERROR or an error of the frame that it read. -/
theorem parseFrame_ne_raised {e : CommandError} (he : e = .invalidBuildParams ∨ e = .illegalCmd) (s : State) :
    s.parseFrame ≠ .raised e := by
  intro h
  obtain ⟨-, rfl⟩ | ⟨hN, -⟩ := Run.require_eq_raised.1 h
  · simp at he
  obtain ⟨f, hf⟩ | hcell := holdsFrame_or_unwritten hN
  · have hres := (parseFrame_of_holds hf).symm.trans h
    cases hr : frameResult (frameWords s.cfg f) f with
    | ok p => simp [hr] at hres
    | error e' =>
      rw [hr] at hres
      exact frameResult_ne_error he _ _ (hr.trans (congrArg _ (Run.raised.inj hres)))
  · cases (parseFrame_eq_unwritten.2 ⟨hN, hcell⟩).symm.trans h

section

variable {e : CommandError}

/-- The codes of the errors PARSE raises (R180). -/
theorem CommandError.status_of_parse (hbuild : e ≠ .invalidBuildParams) (hillegal : e ≠ .illegalCmd) :
    e.status.bits = 1 ∨ e.status.bits = 2 ∨ e.status.bits = 3 ∨ e.status.bits = 5 ∨ e.status.bits = 6
      ∨ e.status.bits = 7 := by
  cases e with
  | invalidBuildParams => exact absurd rfl hbuild
  | illegalCmd => exact absurd rfl hillegal
  | _ => simp [CommandError.status, StatusCode.bits]

/-- KNOWN of an EXCEPTION_RESPONSE tells whether the code is in the table (42_parse.md R145). -/
theorem CommandError.known_of_exceptionResponse (h : e.status.bits = 2) :
    e.errInfo.known = decide (0x01 ≤ e.errInfo.code.toNat ∧ e.errInfo.code.toNat ≤ 0x08) := by
  cases e with
  | exceptionResponse c => rfl
  | _ => simp [CommandError.status, StatusCode.bits] at h

/-- KNOWN of an UNSUPPORTED_FC is 0. -/
theorem CommandError.known_of_unsupportedFc (h : e.status.bits = 3) : e.errInfo.known = false := by
  cases e with
  | unsupportedFc c => rfl
  | _ => simp [CommandError.status, StatusCode.bits] at h

/-- Every other error leaves ERR_INFO 0. -/
theorem CommandError.errInfo_of_other (h2 : e.status.bits ≠ 2) (h3 : e.status.bits ≠ 3) : e.errInfo = ⟨0, false⟩ := by
  cases e with
  | exceptionResponse c => exact absurd rfl h2
  | unsupportedFc c => exact absurd rfl h3
  | _ => rfl

end

/-- Settles O44: PARSE that raises an error writes back what that error carries. -/
theorem parseErrorWriteBack : Obligations.ParseErrorWriteBack := by
  intro s t ht hst
  cases exec_cases ht with
  | parse p _ ht => subst ht; exact absurd rfl hst
  | parseError e hp ht =>
    subst ht
    have hbuild : e ≠ .invalidBuildParams := fun he => parseFrame_ne_raised (.inl he) s hp
    have hillegal : e ≠ .illegalCmd := fun he => parseFrame_ne_raised (.inr he) s hp
    exact ⟨e.status_of_parse hbuild hillegal, rfl, e.known_of_exceptionResponse, e.known_of_unsupportedFc,
      e.errInfo_of_other⟩

/-! ## Between accesses (R193) -/

/-- Settles O8, by the case of a step without an event (log entry 2). -/
theorem idleStepHoldsState : Obligations.IdleStepHoldsState := fun _ h => step_nil h

end Sys2Proof.Machine

/-! PROOFS of the statements about reset and hazards (70_reset_and_hazards.md): what a command leaves alone, the reset
state, and the reset input. -/

namespace Sys2Proof.Machine

/-! ## What commands leave alone (R210) -/

/-- Commands write into the columns of 10_state.md R43 only: STATUS, CRC_ACC, OUT_LEN, OUT_BUF, the RESP registers and
ERR_INFO. -/
theorem exec_eq_outputs {i : Instr} {s t : State} (h : exec i s = .next t) :
    t = { s with status := t.status, crcAcc := t.crcAcc, outLen := t.outLen, outBuf := t.outBuf,
                 respUnit := t.respUnit, respFc := t.respFc, respReg := t.respReg, respDevid := t.respDevid,
                 errInfo := t.errInfo } := by
  cases i with
  | crcInit | crcUpdate | crcBuf => rw [(exec_crc_columns (by simp) h).1]
  | buildRead | buildFrame => rw [exec_build_columns (by simp) h]
  | parse => rw [exec_parse_columns h]

/-- Settles O48: no operand is among the columns of R43. -/
theorem commandsKeepOperands : Obligations.CommandsKeepOperands := by
  intro i s t h
  rw [exec_eq_outputs h]
  exact ⟨rfl, rfl, rfl, rfl, rfl, rfl, rfl, rfl, rfl⟩

/-! ## The reset state (R200) -/

/-- After reset every cell of IN_BUF reads as unlisted. -/
@[simp] theorem resetOf_inCell (c : Config) (i : Nat) : (State.resetOf c).inCell i = unlistedCell c.bufReset := rfl

/-- After reset every cell of OUT_BUF reads as unlisted. -/
@[simp] theorem resetOf_outCell (c : Config) (i : Nat) : (State.resetOf c).outCell i = unlistedCell c.bufReset := rfl

/-- The ERR_INFO word is 0 when both fields are (10_state.md R35). -/
@[simp] theorem errInfoWord_noErrInfo : errInfoWord noErrInfo = 0 := by decide

/-- Settles O9, row by row of the table of R200: the registers compute, and a cell reads as unlisted. -/
theorem resetStateValues : Obligations.ResetStateValues := by
  refine ⟨rfl, fun c => ⟨rfl, rfl, rfl, rfl, ?registers, ?zero, ?undef⟩⟩
  case registers =>
    simp only [List.forall_mem_cons]
    exact ⟨rfl, rfl, rfl, rfl, rfl, rfl, rfl, rfl, rfl, rfl, congrArg some errInfoWord_noErrInfo,
      List.forall_mem_nil _⟩
  case zero => intro h i; simp [h, unlistedCell]
  case undef => intro h i; simp [h, unlistedCell]

/-! ## The reset input (R200, R201) -/

/-- Settles O10: the event is taken from the queue, and what it does is `applyReset` (log entry 9). -/
theorem resetEventRestoresReset : Obligations.ResetEventRestoresReset := by
  intro s rest h
  calc step s
    _ = portEvent .reset (s.setEvents rest) := step_cons h
    _ = .next (s.setEvents rest).applyReset := rfl
    _ = .next { State.resetOf s.cfg with events := rest, replies := s.replies } := rfl

end Sys2Proof.Machine
